-- ==== Sys2Proof/Word.lean ====
section
/-! DEFINITION. Word.lean: the word types of the PZ-1 model, its index types, and the plainest arithmetic on
them (saturating counters of Tables 3.10 to 18.3, little-endian bytes of R5). -/

namespace Sys2Proof

abbrev Byte := BitVec 8
abbrev Half := BitVec 16
abbrev Word := BitVec 32
abbrev DWord := BitVec 64

/-- A folio number, fy × 8 + fx (R30). -/
abbrev FolioId := Fin 64
/-- A host port (R41). -/
abbrev PortId := Fin 8
/-- A peer link, 8 × direction + link (R384). -/
abbrev LinkId := Fin 48
/-- A reader number: the slot port × 512 + index (R317). -/
abbrev ReaderId := BitVec 12
/-- A bay id, 0–4,095 (Table 11.5). -/
abbrev BayId := BitVec 12

/-- A logical carrel by its global coordinates (R36). -/
structure CarrelId where
  x : Fin 544
  y : Fin 544
deriving DecidableEq, Repr

/-- A router by its global alcove coordinates (R37). -/
structure AlcoveId where
  ax : Fin 136
  ay : Fin 136
deriving DecidableEq, Repr

/-- The row-major key of a carrel in the carrel table. -/
def CarrelId.key (c : CarrelId) : Nat := c.y.val * 544 + c.x.val
/-- The row-major key of a router in the router table. -/
def AlcoveId.key (a : AlcoveId) : Nat := a.ay.val * 136 + a.ax.val

/-- Add one, saturating at all ones. -/
def satInc {n : Nat} (x : BitVec n) : BitVec n := if x = BitVec.allOnes n then x else x + 1
/-- Add a count, saturating at all ones. -/
def satAdd {n : Nat} (x : BitVec n) (k : Nat) : BitVec n :=
  if x.toNat + k < 2 ^ n then x + BitVec.ofNat n k else BitVec.allOnes n
/-- A count as an n-bit value, saturating. -/
def satNat (n k : Nat) : BitVec n := if k < 2 ^ n then BitVec.ofNat n k else BitVec.allOnes n

/-- The n low bytes of a value, byte 0 first (R5). -/
def leBytes (n v : Nat) : List Byte :=
  match n with
  | 0 => []
  | k + 1 => BitVec.ofNat 8 v :: leBytes k (v / 256)
/-- The value of a little-endian byte string (R5). -/
def leNat : List Byte → Nat
  | [] => 0
  | b :: bs => b.toNat + 256 * leNat bs
/-- The n low bytes of a value, most significant first (Table 11.3). -/
def beBytes (n v : Nat) : List Byte := (leBytes n v).reverse
/-- The value of a big-endian byte string. -/
def beNat (bs : List Byte) : Nat := leNat bs.reverse

/-- The field of `len` bytes at `off` of a record, zero bytes past its end. -/
def bytesAt (bs : List Byte) (off len : Nat) : List Byte :=
  let f := (bs.drop off).take len
  f ++ List.replicate (len - f.length) 0
/-- The little-endian value of the field of `len` bytes at `off`. -/
def fieldAt (bs : List Byte) (off len : Nat) : Nat := leNat (bytesAt bs off len)
/-- Bits [lo + w − 1 : lo] of a value. -/
def natBits (v lo w : Nat) : Nat := (v / 2 ^ lo) % 2 ^ w
/-- Bit `i` of a mask, as a Bool. -/
def bitOf {n : Nat} (m : BitVec n) (i : Nat) : Bool := m.getLsbD i
/-- The mask with bit `i` set to `b`. -/
def setBit {n : Nat} (m : BitVec n) (i : Nat) (b : Bool) : BitVec n :=
  if b then m ||| BitVec.ofNat n (2 ^ i) else m &&& ~~~(BitVec.ofNat n (2 ^ i))
/-- Indices of the set bits of a mask, lowest first. -/
def maskList {n : Nat} (m : BitVec n) : List Nat := (List.range n).filter (fun i => m.getLsbD i)
/-- A Bool as a number. -/
def b2n (b : Bool) : Nat := if b then 1 else 0
/-- All bytes of a list are zero. -/
def allZero (bs : List Byte) : Bool := bs.all (· == 0)
/-- Whether `a` lies in [lo, lo + len). -/
def inSpan (a lo len : Nat) : Bool := decide (lo ≤ a ∧ a < lo + len)

end Sys2Proof
end

