-- ==== Sys2Proof/Syntax.lean ====
section
/-! DEFINITION. Syntax.lean: the commands of the PZ-1 block, one constructor per row of the opcode table, with
the operands each event brings from outside (what a unit measured, what a link carried, what the host wrote). -/

namespace Sys2Proof

/-- What the checks of an access found (R138, R415): nothing, words that SECDED corrected, a word that it could not, or a
link transfer that failed its check so many times: a bond-link transfer of a stacks cell, or an archive access. -/
inductive Ecc where
  | clean
  | corrected (words : Nat)
  | uncorrectable
  | retried (failures : Nat)
deriving DecidableEq, Repr

/-- The three conditions of R53 at a port, as its detectors give them. -/
structure RefConditions where
  present  : Bool
  inWindow : Bool
  locked   : Bool
deriving DecidableEq, Repr

/-- An input/output rail (Table 19.3): STBY, AON and PPHY of each leaf, HPHY at 0.85 V and 1.2 V of each leaf, and four of
each archive board. -/
inductive IoRail where
  | stby
  | aon (leafB : Bool)
  | hphy85 (leafB : Bool)
  | hphy120 (leafB : Bool)
  | pphy (leafB : Bool)
  | vdd1 (board : Fin 8)
  | vdd2h (board : Fin 8)
  | vdd2l (board : Fin 8)
  | vddq (board : Fin 8)
deriving DecidableEq, Repr

/-- A rail of the binding (Table 4.1). -/
inductive Rail where
  | core (f : FolioId)
  | stackMem (n : Fin 4)
  | io (r : IoRail)
deriving DecidableEq, Repr

/-- A regulator's telemetry: current in mA, voltage in mV (R80). -/
structure Telemetry where
  ma : Nat := 0
  mv : Nat := 0
deriving DecidableEq, Repr

/-- A calibration point of a meter: what it read uncorrected and what the regulator's telemetry gave, in mA (R83). -/
structure CalPoint where
  raw : Nat
  tel : Nat
deriving DecidableEq, Repr

/-- What the calibration of a folio's meter found: its points at two activity levels, none where it failed (R83). A folio
with no row keeps its points. -/
structure CalRow where
  folio  : FolioId
  points : Option (CalPoint × CalPoint)
deriving DecidableEq, Repr

/-- A folio's counts in one microsecond, in the order of R83: MX issues, tree-walker steps, SRAM bank accesses, stacks port
transfers, switch flits, router flits. -/
abbrev MeterCounts := Vector Nat 6

/-- A PLL that R51 stops. -/
inductive PllUnit where
  | qualification (port : PortId)
  | folio (f : FolioId)
deriving DecidableEq, Repr

/-- What one curator's ROM found (R114). -/
structure CuratorReport where
  completed : Bool
  selfCheck : Bool
  imprintOk : Bool
  powerGood : Bool
deriving DecidableEq, Repr

/-- An errata entry (Table 5.2). An archive channel (KIND 0x6) uses bits [23:10], which are `a` and `b`. -/
structure ErrataEntry where
  kind   : BitVec 4
  folio  : FolioId
  a      : BitVec 7
  b      : BitVec 7
  c      : BitVec 4
  d      : BitVec 4
  start  : BitVec 16
  source : BitVec 2
deriving DecidableEq, Repr

/-- The votes on the physical carrel (pc, pr) (R120): true is a pass. The voter at pc − 1 is `outward`, the one at pc + 1
`inward`, those at pr − 1 and pr + 1 `north` and `south`; `libr` is the librarian's own test of it (R121). A carrel with
no row was passed by every voter. -/
structure VoteRow where
  folio : FolioId
  pr    : Nat
  pc    : Nat
  outward : Bool
  inward : Bool
  north : Bool
  south : Bool
  libr  : Bool
deriving DecidableEq, Repr

/-- A unit tested from both ends (R122): a carrel link, a lane or a spine copy, named by its errata entry. -/
structure PairTest where
  entry : ErrataEntry
  endA  : Bool
  endB  : Bool
deriving DecidableEq, Repr

/-- What INVENTORY found (R120–R122); a unit that no field names passed. -/
structure InventoryReport where
  votes      : List VoteRow
  pairs      : List PairTest
  sites      : List ErrataEntry
  librarians : List FolioId
  channels   : List (Fin 256)
deriving DecidableEq, Repr

/-- What self-audit found (Table 18.2); a checker that no field names gave exactly the expected result. `shortened` names
carrels that did not answer capture-clock shortening as expected: it reaches only the carrel at one position of each alcove
(R418), and `folios` holds the other failures of class 7. -/
structure AuditReport where
  folios   : List (Fin 9 × FolioId)
  shortened : List CarrelId
  channels : List (Fin 256)
  ports    : List PortId
  curators : List (Fin 4 × Bool)
deriving DecidableEq, Repr

/-- What meets a long instruction while it runs: the number of elements it may complete before the boundary of a
recall (R144; none: no recall comes), the element whose data are uncorrectable, and the corrected words. -/
structure LongEnv where
  limit : Option Nat
  ue    : Option Nat
  ce    : Nat
  /-- Bond-link transfers repeated, and the element whose transfer failed for the fifth time (R415). -/
  bond   : Nat := 0
  bondUe : Option Nat := none
deriving DecidableEq, Repr

/-- A flit of the scheduled plane (Table 8.2). -/
abbrev Flit := BitVec 128

/-- What befalls the scheduled plane of a bay in one working cycle, from outside its timetables. -/
structure PlaneEvents where
  /-- What the check of a carrel's switch read found (R138). -/
  ecc   : List (CarrelId × Ecc) := []
  /-- Bits that lanes turned in the flit arriving at input N, E, S, W of a carrel (R196). -/
  lanes : List (CarrelId × Fin 4 × Flit) := []
  /-- Crossing FIFOs on side N, E, S, W of a folio whose write pointer gains an entry on the read pointer, or loses one
  (R71). -/
  drift : List (FolioId × Fin 4 × Bool) := []
deriving DecidableEq, Repr

/-- An input or output port of a router (R210): N, E, S, W, L0–L3, A. -/
abbrev RouterPort := Fin 9

/-- A routed-plane packet: route header, operation flit and data flits (Table 9.2). -/
structure Packet where
  type   : BitVec 4
  reply  : Bool
  cls    : Bool
  sys    : Bool
  len    : BitVec 3
  ticket : BitVec 16
  tag    : BitVec 10
  dw     : BitVec 11
  dax    : BitVec 8
  day    : BitVec 8
  dport  : BitVec 5
  sw     : BitVec 11
  sax    : BitVec 8
  say    : BitVec 8
  sport  : BitVec 5
  call   : BitVec 48
  size   : BitVec 3
  mark   : Bool
  status : BitVec 4
  pcrc   : Word
  data   : List (BitVec 112)
  /-- Bytes of a piece of a misaligned access (R170); 0 where SIZE says it. Table 9.2 gives a piece's length no
  field (notes/assumptions/5). -/
  span   : BitVec 7
deriving DecidableEq, Repr

/-- What the check of a link word found (R213). -/
inductive LinkCheck where
  | good
  | single
  | double
deriving DecidableEq, Repr

/-- What the check found in the link words that an input received up to a packet's last: the words without a flit that
came before it, and the packet's own, in order (R213). A word with no entry was good. -/
structure LinkChecks where
  idle  : List LinkCheck := []
  flits : List LinkCheck := []
deriving DecidableEq, Repr

/-- Where a control word arrives (R203): at a carrel, or at a librarian in two spine copies. -/
inductive ControlDst where
  | carrel (c : CarrelId) (word : Word)
  | librarian (bay : BayId) (f : FolioId) (copy0 copy1 : Word)
deriving DecidableEq, Repr

/-- What the partner's TRAIN codewords say of it (Table 16.2, stage 2). -/
structure PartnerId where
  catId  : Word
  shape  : BitVec 11
  coord  : BitVec 11
  dir    : BitVec 3
  link   : BitVec 3
  serial : DWord
  freq   : BitVec 2
deriving DecidableEq, Repr

/-- A word of a codeword: idle, a routed link word (Table 9.1), or a scheduled flit. -/
inductive LinkWord where
  | idle
  | routed (word : BitVec 128)
  | scheduled (flit : Flit)
deriving DecidableEq, Repr

/-- A received peer codeword (Table 16.1). `fec` says that the FEC decoded it, `corrected` that it corrected it; `serial`
and `freq` are what a TRAIN codeword says of the partner. -/
structure Codeword where
  fec       : Bool
  corrected : Bool
  crc       : Half
  seq       : BitVec 7
  ack       : BitVec 7
  ackValid  : Bool
  nack      : Bool
  kind      : BitVec 2
  ctrl      : Word
  ctype     : BitVec 4
  serial    : DWord
  freq      : BitVec 2
  words     : List LinkWord
deriving DecidableEq, Repr

/-- An abort wave's data flit (Table 16.3). -/
structure AbortWave where
  catBay : Word
  origin : BitVec 11
  wave   : BitVec 16
  dir    : BitVec 8
  link   : BitVec 8
  set    : BitVec 8
deriving DecidableEq, Repr

/-- Which ring of a reader slot (R321). -/
inductive RingKind where
  | req
  | ver
  | not
deriving DecidableEq, Repr

/-- What a host read fetches (R316). -/
inductive HostRead where
  | descriptor (r : ReaderId)
  | input (r : ReaderId)
  | codexImage
  | volumeSegment
  | mailboxData
  | nvsImage
deriving DecidableEq, Repr

/-- A PCIe configuration write that changes a reader's presence or its interrupts (R339, R340). -/
inductive CfgWrite where
  | busMaster (on : Bool)
  | d3hot (on : Bool)
  | vfs (enable : Bool) (num : BitVec 9)
  | msixEnable (on : Bool)
  | msixMask (on : Bool)
deriving DecidableEq, Repr

/-- A host access: the function, its BAR (false BAR0, true BAR2), the offset and the size in bytes. -/
structure HostAccess where
  fn     : ReaderId
  bar2   : Bool
  offset : Nat
  size   : Nat
deriving DecidableEq, Repr

/-- The commands, in the order of the opcode table. -/
inductive Instr where
  -- power and the reference
  | powerApplied (mv : Nat)
  | inputUndervoltage (mv : Nat)
  | regulatorShutdown (mv : Nat)
  | inputOvervoltage (mv : Nat)
  | referenceReady (p : PortId)
  | readyFlagClear (p : PortId) (now : RefConditions)
  | pllStop (u : PllUnit)
  | pllRelockComplete
  | portPpmWindow (p : PortId) (offset : Word) (throughout : Bool)
  | refSelect (active standby : BitVec 4) (strict : Bool)
  | freqReq (target : BitVec 2)
  | folioDark (mask : DWord)
  | dimFall (f : FolioId)
  | dimWake (b : BayId)
  | avsFrameEffect (f : FolioId) (cut : Bool)
  | railSettled (f : FolioId)
  | railMeterUpdate (f : FolioId) (counts : MeterCounts)
  | capUpdate (telemetry : List (Rail × Telemetry)) (mv deciAmps : Nat)
  | trimReqWrite (f : FolioId) (req : BitVec 3)
  | trimClear (f : FolioId)
  | alertAssert (line : Fin 4) (rail : Option Rail)
  | alertHoldExpiry
  | resumeFromAlert (data : Byte) (pecOk : Bool)
  | coolantMeasurement (inlet outlet : Int) (flow : Nat)
  | junctionReport (f : FolioId) (celsius : Nat)
  -- start-up
  | romEnd (a b : CuratorReport)
  | electTimeout
  | bookplateEnd (flashOk fwA fwB : Bool)
  | clocksEnd
  | inventoryEnd (rep : InventoryReport)
  | rebindEnd
  | auditEnd (rep : AuditReport)
  | calibrateEnd (rows : List CalRow)
  | raiseEnd
  | stageLimit
  | noCuratorTimeout (p : PortId)
  | heartbeat
  | heartbeatTimeout
  | librarianHeartbeatTimeout
  -- carrel instructions: scalar
  | add (c : CarrelId) (rd rs1 rs2 : BitVec 5)
  | sub (c : CarrelId) (rd rs1 rs2 : BitVec 5)
  | and (c : CarrelId) (rd rs1 rs2 : BitVec 5)
  | or (c : CarrelId) (rd rs1 rs2 : BitVec 5)
  | xor (c : CarrelId) (rd rs1 rs2 : BitVec 5)
  | sll (c : CarrelId) (rd rs1 rs2 : BitVec 5)
  | srl (c : CarrelId) (rd rs1 rs2 : BitVec 5)
  | sra (c : CarrelId) (rd rs1 rs2 : BitVec 5)
  | mul (c : CarrelId) (rd rs1 rs2 : BitVec 5)
  | sel (c : CarrelId) (rd rs1 rs2 : BitVec 5) (p : BitVec 3)
  | fadd (c : CarrelId) (rd rs1 rs2 : BitVec 5)
  | fsub (c : CarrelId) (rd rs1 rs2 : BitVec 5)
  | fmul (c : CarrelId) (rd rs1 rs2 : BitVec 5)
  | fcvtif (c : CarrelId) (rd rs1 rs2 : BitVec 5)
  | fcvtfi (c : CarrelId) (rd rs1 rs2 : BitVec 5)
  | ftobf (c : CarrelId) (rd rs1 rs2 : BitVec 5)
  | cmpeq (c : CarrelId) (pd rs1 rs2 : BitVec 5)
  | cmplt (c : CarrelId) (pd rs1 rs2 : BitVec 5)
  | cmpltu (c : CarrelId) (pd rs1 rs2 : BitVec 5)
  | fcmplt (c : CarrelId) (pd rs1 rs2 : BitVec 5)
  | fcmple (c : CarrelId) (pd rs1 rs2 : BitVec 5)
  | pand (c : CarrelId) (pd ps1 ps2 : BitVec 5)
  | por (c : CarrelId) (pd ps1 ps2 : BitVec 5)
  | pnot (c : CarrelId) (pd ps1 ps2 : BitVec 5)
  | addi (c : CarrelId) (rd rs1 : BitVec 5) (imm : BitVec 16)
  | andi (c : CarrelId) (rd rs1 : BitVec 5) (imm : BitVec 16)
  | ori (c : CarrelId) (rd rs1 : BitVec 5) (imm : BitVec 16)
  | slli (c : CarrelId) (rd rs1 : BitVec 5) (imm : BitVec 16)
  | srli (c : CarrelId) (rd rs1 : BitVec 5) (imm : BitVec 16)
  | srai (c : CarrelId) (rd rs1 : BitVec 5) (imm : BitVec 16)
  | lui (c : CarrelId) (rd : BitVec 5) (imm : BitVec 21)
  -- control
  | beq (c : CarrelId) (rs1 rs2 : BitVec 5) (off : BitVec 16)
  | bne (c : CarrelId) (rs1 rs2 : BitVec 5) (off : BitVec 16)
  | bp (c : CarrelId) (ps rs2 : BitVec 5) (off : BitVec 16)
  | bnp (c : CarrelId) (ps rs2 : BitVec 5) (off : BitVec 16)
  | jal (c : CarrelId) (rd : BitVec 5) (imm : BitVec 21)
  | jalr (c : CarrelId) (rd rs1 : BitVec 5) (imm : BitVec 16)
  -- memory
  | ldl (c : CarrelId) (rt rb : BitVec 5) (mark : Bool) (size : BitVec 3) (off : BitVec 12) (ecc : Ecc)
  | stl (c : CarrelId) (rt rb : BitVec 5) (mark : Bool) (size : BitVec 3) (off : BitVec 12) (ecc : Ecc)
  | lds (c : CarrelId) (rt rb : BitVec 5) (mark : Bool) (size : BitVec 3) (off : BitVec 12) (ecc : Ecc)
  | sts (c : CarrelId) (rt rb : BitVec 5) (mark : Bool) (size : BitVec 3) (off : BitVec 12) (ecc : Ecc)
  | ld2 (c : CarrelId) (rt rb : BitVec 5) (mark : Bool) (size : BitVec 3) (off : BitVec 12) (ecc : Ecc)
  | st2 (c : CarrelId) (rt rb : BitVec 5) (mark : Bool) (size : BitVec 3) (off : BitVec 12) (ecc : Ecc)
  | ldres (c : CarrelId) (rt rb : BitVec 5) (mark : Bool) (size : BitVec 3) (off : BitVec 12) (ecc : Ecc)
  | stcond (c : CarrelId) (rd rs1 rs2 : BitVec 5) (fn : BitVec 11) (ecc : Ecc)
  | fence (c : CarrelId) (fields : BitVec 26)
  -- plane and units
  | beatwait (c : CarrelId) (rd rs1 rs2 : BitVec 5) (fn : BitVec 11)
  | beatrd (c : CarrelId) (rd rs1 rs2 : BitVec 5) (fn : BitVec 11)
  | mxload (c : CarrelId) (rd rs1 rs2 rs3 : BitVec 5) (mode : BitVec 6) (ecc : Ecc)
  | mxpass (c : CarrelId) (rd rs1 rs2 rs3 : BitVec 5) (mode : BitVec 6) (env : LongEnv) (flags : List (Nat × Nat))
  | mxdrain (c : CarrelId) (rd rs1 rs2 rs3 : BitVec 5) (mode : BitVec 6) (ecc : Ecc)
  | mxclr (c : CarrelId) (fields : BitVec 26)
  | twalk (c : CarrelId) (rd rs1 rs2 rs3 : BitVec 5) (mode : BitVec 6) (env : LongEnv)
  | bmove (c : CarrelId) (rd rs1 rs2 rs3 : BitVec 5) (mode : BitVec 6) (env : LongEnv)
  | diff (c : CarrelId) (rd rs1 rs2 rs3 : BitVec 5) (mode : BitVec 6) (env : LongEnv)
  -- system
  | exit (c : CarrelId) (rd rs1 rs2 : BitVec 5)
  | rdsr (c : CarrelId) (rd rs1 rs2 : BitVec 5)
  | rdtick (c : CarrelId) (rd rs1 rs2 : BitVec 5)
  | draw (c : CarrelId) (rd rs1 rs2 : BitVec 5)
  | aget (c : CarrelId) (rd as1 rs2 : BitVec 5) (high : Bool)
  | aset (c : CarrelId) (ad rs1 rs2 : BitVec 5)
  -- passes
  | recallTaken (c : CarrelId)
  | quiescence (c : CarrelId)
  | quiesced (b : BayId) (c : CarrelId)
  | exited (b : BayId) (c : CarrelId)
  | fault (b : BayId) (c : CarrelId)
  | overrun (b : BayId) (c : CarrelId)
  | plane (b : BayId) (c : CarrelId)
  | start (b : BayId)
  | resume (b : BayId)
  | bayRecall (b : BayId)
  | fraction (b : BayId)
  | flit (b : BayId) (ev : PlaneEvents)
  | egressRelease (b : BayId)
  | refreshComplete (b : BayId) (ecc : List (CarrelId × Ecc))
  | bookmarkLookupResult (b : BayId)
  | imageCopyComplete (b : BayId)
  | inputWriteComplete (b : BayId)
  | shelveOutComplete (b : BayId) (ecc : List (CarrelId × Ecc))
  | shelveInComplete (b : BayId) (ecc : List (CarrelId × Ecc))
  | passLoanExpiry (b : BayId) (shelved : Bool)
  | requestLoanExpiry (accession : DWord)
  | stacksRefresh (c : CarrelId)
  | duplexCompare (b : BayId)
  -- routed plane and shared space
  | packetHop (a : AlcoveId) (port : RouterPort) (p : Packet) (chk : LinkChecks)
  | syncWord (a : AlcoveId) (port : RouterPort) (chk : LinkCheck)
  | read (p : Packet) (ecc : Ecc)
  | write (p : Packet) (ecc : Ecc)
  | resv (p : Packet) (ecc : Ecc)
  | cond (p : Packet) (ecc : Ecc)
  | data (p : Packet)
  | ack (p : Packet)
  | ctrl (p : Packet) (catBay : Word) (wafer : BitVec 11) (ready : Bool)
  | abort (p : Packet)
  | reservationQueueTimeout (home : BitVec 48) (requester : BitVec 32)
  -- peer links
  | electricalStage (l : LinkId) (ok : Bool)
  | identityStage (l : LinkId) (partner : PartnerId)
  | frequencyStage (l : LinkId) (offset : Word) (auditOk : Bool)
  | latencyStage (l : LinkId) (roundTrips : List Nat)
  | linkRetrain (l : LinkId)
  | linkOffsetWindow (l : LinkId) (offset : Word)
  | codeword (l : LinkId) (cw : Codeword)
  | linkSilence (l : LinkId)
  | crossingDeadline (l : LinkId)
  -- host link
  | doorbell (r : ReaderId) (tail : BitVec 12)
  | verHead (r : ReaderId) (head : BitVec 12)
  | notHead (r : ReaderId) (head : BitVec 12)
  | rdrControl (r : ReaderId) (bits : BitVec 4)
  | rdrWindow (r : ReaderId) (base : DWord)
  | ringConfig (r : ReaderId) (ring : RingKind) (base : Word) (size : BitVec 4)
  | bookDropCommit (r : ReaderId) (slot : Fin 8) (word : DWord)
  | bookDropWrite (r : ReaderId) (offset : Nat) (bytes : List Byte)
  | hostReadCompletion (t : HostRead) (ok : Bool) (bytes : List Byte)
  | hostReadTimeout (t : HostRead)
  | msixHoldoff (r : ReaderId) (v : Fin 4)
  | holdExpiry (r : ReaderId)
  | perst (p : PortId)
  | hotReset (p : PortId)
  | linkDown (p : PortId)
  | linkUp (p : PortId) (speed : BitVec 2) (flit : Bool) (width : BitVec 5)
  | flr (r : ReaderId)
  | vfEnableClear (p : PortId)
  | readerResetQuiesced (r : ReaderId)
  -- the mailbox
  | waferReset (tag : BitVec 16)
  | bookplateWrite (tag : BitVec 16)
  | keyEnroll (tag : BitVec 16)
  | keyRevoke (tag : BitVec 16)
  | readerReset (tag : BitVec 16)
  | ledgerCheckpoint (tag : BitVec 16)
  | relinquish (tag : BitVec 16)
  | challengeIssue (tag : BitVec 16)
  | challengeUnlock (tag : BitVec 16)
  | challengeRecover (tag : BitVec 16)
  -- codex, volumes, bays, bookmarks, non-volatile store, ledger
  | loadHostWhole
  | loadHostBay
  | loadFlash
  | loadRomSample (index : BitVec 4)
  | unload
  | codexHeaderRead
  | codexLoadEnd
  | loadVolume (b : BayId) (vslot : Byte)
  | volumeLoadEnd
  | volumeLoadAbandon
  | evict (b : BayId) (vslot : Byte)
  | pause (b : BayId)
  | bayContinue (b : BayId)
  | bayReset (b : BayId)
  | invalidate
  | bkmConfig (sets : BitVec 24)
  | storeCodex
  | clearCodex
  | storeFirmware
  | flashProgramComplete
  | checkpointTimer
  | drainHead (head : BitVec 20)
  -- management bus
  | ident
  | status
  | thermal
  | power
  | clearWarn (data : Byte) (pecOk : Bool)
  | alertResponseAddress
  -- test port
  | extest
  | idcode
  | samplePreload
  | highz
  | bypass
  | testLogicReset
  -- registers and the rest
  | registerWrite (at_ : HostAccess) (value : DWord)
  | rcRead (at_ : HostAccess)
  | alertLineClear (line : Fin 4) (rail : Option Rail)
  | configurationSpaceWrite (r : ReaderId) (w : CfgWrite)
  | sentinelStep (c : CarrelId) (replays : Nat)
  | instructionFetch (c : CarrelId) (ecc : Ecc)
  | controlWord (dst : ControlDst)
deriving DecidableEq, Repr

end Sys2Proof
end

