-- ==== Sys2Proof/Decode.lean ====
section
/-! DEFINITION. Decode.lean: the command a word spells by the opcode table's bits. No row of this block's table
gives bits, so no word spells a command (every row's "fields" is empty). The 32-bit encoding of a carrel
instruction (R162–R165) is read by the fetch of a carrel, execInstructionFetch in Machine/System.lean. -/

namespace Sys2Proof

/-- No row of the table gives bits: no word spells a command. -/
def decodeTableWord (_nbits _w : Nat) : Option Instr := none

end Sys2Proof
end

