-- ==== Sys2Proof/Config.lean ====
section
/-! DEFINITION. Config.lean: what a binding or the maker fixes and the spec does not state, and the free values.
Each is opaque: nothing can evaluate it or prove a value of it. -/

namespace Sys2Proof.Config

/-- The 32 bits that the n-th read of an entropy source gives (R186 DRAW, R399, R458): a free value.
[log DESIGN CHOICE 11] -/
opaque entropy : Nat → Word

/-- r and s of the n-th randomised device-key signature (R399): the private key and k are never known.
[log DESIGN CHOICE 11] -/
opaque deviceSigR : Nat → BitVec 384
/-- s of the n-th device-key signature (R399). -/
opaque deviceSigS : Nat → BitVec 384

/-- X of the device public key, an uncompressed P-384 point, from the identity secret (R399): the derivation is fixed in ROM
and not in the spec. [log DESIGN CHOICE 11] -/
opaque deviceKeyX : BitVec 256 → BitVec 384
/-- Y of the device public key. [log DESIGN CHOICE 11] -/
opaque deviceKeyY : BitVec 256 → BitVec 384

/-- The maker's sample key hash in ROM (R257). [log DESIGN CHOICE 11] -/
opaque sampleKeyHash : BitVec 256
/-- The maker's service key hash in ROM (R458). [log DESIGN CHOICE 11] -/
opaque serviceKeyHash : BitVec 256
/-- The factory sample codices held in ROM (R257, R264 OP 0x4): the spec does not give them. [log DESIGN CHOICE 11] -/
opaque romSample : BitVec 4 → List Byte

/-- Whether a firmware image verifies against the maker's key (R129, R414): the spec gives neither the image's
layout nor the key. [log DEDUCED 99, 124; DESIGN CHOICE 11] -/
opaque firmwareVerifies : List Byte → Bool

/-- The result of a read that the routed plane never answers with a value the spec states, indexed by the model's
free-value counter: data of a reply whose payload is shorter than the access (Table 9.2 forbids it).
[log DESIGN CHOICE 11] -/
opaque strayData : Nat → Word

/-- Places along a folio's face for its peer links: the spec gives none, only their order (R41).
[log DESIGN CHOICE 11, 40] -/
opaque linkSlot : LinkId → Nat

/-- The check bits of the SECDED code over bits [119:0] of a link word (Table 9.1): the spec does not give the code.
[log DESIGN CHOICE 11, 174] -/
opaque linkEcc : BitVec 120 → BitVec 8

end Sys2Proof.Config
end

