-- ==== Sys2Proof/Machine/Hash.lean ====
section
/-! DEFINITION. Machine/Hash.lean: SHA-256 (FIPS 180-4, named by R14), the CRCs of R203, R208 and R364, and the
hashes of R14. -/

namespace Sys2Proof

/-- The fractions of the cube roots of the first 64 primes, 32 bits each, eight to a number, the first of them in its
highest bits: the round constants of SHA-256. -/
def cubeRootFractions : List Nat :=
  [0x428a2f9871374491b5c0fbcfe9b5dba53956c25b59f111f1923f82a4ab1c5ed5,
   0xd807aa9812835b01243185be550c7dc372be5d7480deb1fe9bdc06a7c19bf174,
   0xe49b69c1efbe47860fc19dc6240ca1cc2de92c6f4a7484aa5cb0a9dc76f988da,
   0x983e5152a831c66db00327c8bf597fc7c6e00bf3d5a7914706ca635114292967,
   0x27b70a852e1b21384d2c6dfc53380d13650a7354766a0abb81c2c92e92722c85,
   0xa2bfe8a1a81a664bc24b8b70c76c51a3d192e819d6990624f40e3585106aa070,
   0x19a4c1161e376c082748774c34b0bcb5391c0cb34ed8aa4a5b9cca4f682e6ff3,
   0x748f82ee78a5636f84c878148cc7020890befffaa4506cebbef9a3f7c67178f2]
/-- The fractions of the square roots of the first eight primes, in the same form: the initial hash value. -/
def squareRootFractions : Nat := 0x6a09e667bb67ae853c6ef372a54ff53a510e527f9b05688c1f83d9ab5be0cd19
/-- Word `i` of eight words in one number, the first highest. -/
def wordOfEight (v i : Nat) : Word := BitVec.ofNat 32 (v / 2 ^ (32 * (7 - i)))
/-- The constant of a round. -/
def roundConstant (t : Nat) : Word := wordOfEight (cubeRootFractions.getD (t / 8) 0) (t % 8)

/-- The words of a byte string, most significant byte first. -/
def beWords : Nat → List Byte → List Word
  | 0, _ => []
  | n + 1, bs => BitVec.ofNat 32 (beNat (bs.take 4)) :: beWords n (bs.drop 4)

/-- Two rotations of a word and a third part of it, exclusive or. -/
def shaMix (x : Word) (r1 r2 : Nat) (third : Word) : Word := x.rotateRight r1 ^^^ x.rotateRight r2 ^^^ third

/-- One round on the eight working words, with its message word and constant already added up. -/
def shaStep (v : List Word) (kw : Word) : List Word :=
  match v with
  | [a, b, c, d, e, f, g, h] =>
    let new := kw + h + shaMix e 6 11 (e.rotateRight 25) + (g ^^^ (e &&& (f ^^^ g)))
    [new + shaMix a 2 13 (a.rotateRight 22) + ((a &&& (b ||| c)) ||| (b &&& c)), a, b, c, d + new, e, f, g]
  | _ => v

/-- `n` rounds from round `t` on; the list holds the next 16 words of the message schedule. -/
def shaRounds : (n t : Nat) → List Word → List Word → List Word
  | 0, _, _, v => v
  | n + 1, t, w, v =>
    match w with
    | [] => v
    | x :: rest =>
      let p := rest.getD 0 0
      let q := rest.getD 13 0
      let y := x + shaMix p 7 18 (p >>> 3) + rest.getD 8 0 + shaMix q 17 19 (q >>> 10)
      shaRounds n (t + 1) (rest ++ [y]) (shaStep v (x + roundConstant t))

/-- The blocks of a padded message, 64 bytes each, added into the hash value one after another. -/
def shaAbsorb : Nat → List Word → List Byte → List Word
  | 0, v, _ => v
  | n + 1, v, bs =>
    shaAbsorb n (((shaRounds 64 0 (beWords 16 (bs.take 64)) v).zip v).map (fun q => q.1 + q.2)) (bs.drop 64)

/-- The padded message: a one bit, zeros, and the length in bits at the end of a block. -/
def shaPad (m : List Byte) : List Byte :=
  m ++ 0x80 :: (List.replicate ((119 - m.length % 64) % 64) 0 ++ beBytes 8 (8 * m.length))

/-- The SHA-256 digest, 32 bytes. [log DESIGN CHOICE 153] -/
def sha256 (m : List Byte) : List Byte :=
  (shaAbsorb ((m.length + 72) / 64) ((List.range 8).map (wordOfEight squareRootFractions)) (shaPad m)).flatMap
    (fun w => beBytes 4 w.toNat)

/-- The 128-bit form of a digest: its bytes 0–15 (R14). -/
def hash128 (m : List Byte) : List Byte := (sha256 m).take 16
/-- The verdict hash of a payload (R14). -/
def verdictHash (payload : List Byte) : List Byte :=
  hash128 ([0x50, 0x5A, 0x56, 0x31] ++ leBytes 4 payload.length ++ payload)
/-- The input hash of the input bytes (R14). -/
def inputHash (input : List Byte) : List Byte :=
  hash128 ([0x50, 0x5A, 0x49, 0x31] ++ leBytes 4 input.length ++ input)
/-- The hash field of an accession that carries no hash (Table 1.1). -/
def zeroHash : List Byte := List.replicate 16 0

/-- Eight steps of a reflected CRC-32 on one byte. -/
def crc32Step : Nat → Word → Word
  | 0, c => c
  | n + 1, c => crc32Step n (if c.getLsbD 0 then (c >>> 1) ^^^ 0x82F63B78 else c >>> 1)
/-- One byte into the CRC-32C register (polynomial 0x1EDC_6F41 reflected, R208). -/
def crc32Byte (c : Word) (b : Byte) : Word := crc32Step 8 (c ^^^ b.setWidth 32)
/-- The initial value of CRC-32C (R208). -/
def crc32Init : Word := 0xFFFFFFFF
/-- Bytes into a CRC-32C register, without the final XOR. -/
def crc32Feed (c : Word) (bs : List Byte) : Word := bs.foldl crc32Byte c
/-- CRC-32C (R208). [log DESIGN CHOICE 153] -/
def crc32c (bs : List Byte) : Word := crc32Feed crc32Init bs ^^^ 0xFFFFFFFF

/-- Steps of CRC-8, polynomial 0x07. -/
def crc8Step : Nat → Byte → Byte
  | 0, c => c
  | n + 1, c => crc8Step n (if c.getLsbD 7 then (c <<< 1) ^^^ 0x07 else c <<< 1)
/-- CRC-8 of the control lane (Table 8.5). [log DESIGN CHOICE 153] -/
def crc8 (bs : List Byte) : Byte := bs.foldl (fun c b => crc8Step 8 (c ^^^ b)) 0

end Sys2Proof
end

