-- ==== Sys2Proof/Machine/Tbl.lean ====
section
/-! DEFINITION. Machine/Tbl.lean: a sparse table by number, in one canonical form (keys strictly rising, no entry
equal to what an unlisted key reads as), and memory as such a table of bytes. -/

namespace Sys2Proof

/-- A table from numbers to values; an unlisted key reads as the default its reader names. -/
abbrev Tbl (α : Type) := List (Nat × α)

/-- The value at a key. -/
def Tbl.get {α : Type} (d : α) (t : Tbl α) (k : Nat) : α :=
  match t with
  | [] => d
  | (j, v) :: r => if j = k then v else Tbl.get d r k

/-- Take a key out. -/
def Tbl.erase {α : Type} (t : Tbl α) (k : Nat) : Tbl α :=
  match t with
  | [] => []
  | (j, v) :: r => if j = k then Tbl.erase r k else (j, v) :: Tbl.erase r k

/-- Put an entry in, keys rising. -/
def Tbl.insert {α : Type} (t : Tbl α) (k : Nat) (v : α) : Tbl α :=
  match t with
  | [] => [(k, v)]
  | (j, w) :: r =>
    if k < j then (k, v) :: (j, w) :: r
    else if k = j then (k, v) :: r
    else (j, w) :: Tbl.insert r k v

/-- Write a value at a key; writing the default removes the entry. -/
def Tbl.set {α : Type} [DecidableEq α] (d : α) (t : Tbl α) (k : Nat) (v : α) : Tbl α :=
  if v = d then Tbl.erase t k else Tbl.insert t k v

/-- Keys above `lo` (none: any), strictly rising, and no entry equal to the default. -/
def Tbl.wfFrom {α : Type} [DecidableEq α] (d : α) (lo : Option Nat) (t : Tbl α) : Bool :=
  match t with
  | [] => true
  | (j, v) :: r =>
    (match lo with
     | none => true
     | some l => decide (l < j)) && decide (v ≠ d) && Tbl.wfFrom d (some j) r

/-- The canonical form. -/
def Tbl.wf {α : Type} [DecidableEq α] (d : α) (t : Tbl α) : Bool := Tbl.wfFrom d none t

/-- Byte-addressed memory: addresses rising, no byte equal to what an unlisted address reads as. -/
abbrev Memory := List Host.Cell

/-- What a byte of SRAM, stacks or archive that nothing has written reads as (R109: zero after INVENTORY; the
archive's contents are not stated: notes/assumptions/3). [log DESIGN CHOICE 3] -/
def Memory.blank : Byte := 0
/-- What an erased flash byte reads as (notes/assumptions/4). [log PRESUMED 4] -/
def Memory.erased : Byte := 0xFF

/-- The canonical form of a memory whose unlisted bytes read as `d`. -/
def Memory.wf (d : Byte) (m : Memory) : Bool := Tbl.wf d m
/-- One byte. [log DESIGN CHOICE 3] -/
def Memory.byte (d : Byte) (m : Memory) (a : Nat) : Byte := Tbl.get d m a
/-- `n` bytes from `a` up. -/
def Memory.read (d : Byte) (m : Memory) (a n : Nat) : List Byte :=
  (List.range n).map (fun i => Memory.byte d m (a + i))
/-- Write one byte. -/
def Memory.put (d : Byte) (m : Memory) (a : Nat) (b : Byte) : Memory := Tbl.set d m a b
/-- Write bytes from `a` up. -/
def Memory.write (d : Byte) (m : Memory) (a : Nat) (bs : List Byte) : Memory :=
  match bs with
  | [] => m
  | b :: r => Memory.write d (Memory.put d m a b) (a + 1) r
/-- The bytes of [a, a + n), moved to begin at 0. -/
def Memory.slice (m : Memory) (a n : Nat) : Memory := (m.filter (fun c => inSpan c.1 a n)).map (fun c => (c.1 - a, c.2))
/-- Bytes from 0 up, in the canonical form. -/
def Memory.ofBytes (d : Byte) (bs : List Byte) : Memory :=
  ((List.range bs.length).zip bs).filter (fun c => c.2 != d)
/-- Replace the bytes of [a, a + n) by the first `n` of another memory. -/
def Memory.paste (m : Memory) (a n : Nat) (src : Memory) : Memory :=
  m.filter (fun c => decide (c.1 < a)) ++ (src.filter (fun c => decide (c.1 < n))).map (fun c => (c.1 + a, c.2)) ++
    m.filter (fun c => decide (a + n ≤ c.1))
/-- Set the bytes of [a, a + n) back to what an unlisted byte reads as (an erase, a zeroisation). -/
def Memory.clear (m : Memory) (a n : Nat) : Memory := m.filter (fun c => !(inSpan c.1 a n))

end Sys2Proof
end

