-- ==== Sys2Proof/Machine/Geo.lean ====
section
/-! DEFINITION. Machine/Geo.lean: the geography of chapter 2 and the packets of chapter 9, as functions of their
operands alone. -/

namespace Sys2Proof

/-! ### Geography (chapter 2) -/

/-- The folio of coordinates (fx, fy) (R30). -/
def folioAt (fx fy : Nat) : FolioId := Fin.ofNat 64 (fy % 8 * 8 + fx % 8)
/-- fx of a folio. -/
def folioX (f : FolioId) : Nat := f.val % 8
/-- fy of a folio. -/
def folioY (f : FolioId) : Nat := f.val / 8
/-- The folio of a carrel (R36). -/
def CarrelId.folio (c : CarrelId) : FolioId := folioAt (c.x.val / 68) (c.y.val / 68)
/-- The carrel at (x, y). -/
def carrelAt (x y : Nat) : CarrelId := ⟨Fin.ofNat 544 x, Fin.ofNat 544 y⟩
/-- The alcove of a carrel (R37, R230). -/
def CarrelId.alcove (c : CarrelId) : AlcoveId := ⟨Fin.ofNat 136 (c.x.val / 4), Fin.ofNat 136 (c.y.val / 4)⟩
/-- The port of a carrel in its alcove, 4 × row + column (R210). -/
def CarrelId.dport (c : CarrelId) : Nat := 4 * (c.y.val % 4) + c.x.val % 4
/-- The folio of a router. -/
def AlcoveId.folio (a : AlcoveId) : FolioId := folioAt (a.ax.val / 17) (a.ay.val / 17)
/-- The alcove at (ax, ay). -/
def alcoveAt (ax ay : Nat) : AlcoveId := ⟨Fin.ofNat 136 ax, Fin.ofNat 136 ay⟩
/-- The carrel of a port 0–15 of an alcove. -/
def AlcoveId.carrel (a : AlcoveId) (port : Nat) : CarrelId :=
  carrelAt (4 * a.ax.val + port % 4) (4 * a.ay.val + port / 4 % 4)

/-- The attach folio of a host port (Table 2.2). -/
def portFolio (p : PortId) : FolioId :=
  folioAt (if p.val < 4 then 0 else 7)
    (match p.val % 4 with | 0 => 1 | 1 => 3 | 2 => 4 | _ => 6)

/-- The alcoves a curator attaches to, east-edge ones of folios (3, 3) and (3, 4) for A, west-edge ones of (4, 3) and
(4, 4) for B; Table 10.2 gives the first of each (R41). [log DESIGN CHOICE 40] -/
def curatorAlcoves (leafB : Bool) : List AlcoveId :=
  let x := if leafB then 68 else 67
  [alcoveAt x 67, alcoveAt x 68]

/-- The attach folio of a face (R42). -/
def faceFolio (face : Nat) : FolioId :=
  if face < 8 then folioAt face 0
  else if face < 16 then folioAt 7 (face - 8)
  else if face < 24 then folioAt (23 - face) 7
  else folioAt 0 (31 - face)

/-- The edge alcove of an archive channel: face c div 8, position 2k + 1 (Table 10.2). -/
def channelAlcove (ch : Nat) : AlcoveId :=
  let face := ch / 8
  let f := faceFolio face
  let pos := 2 * (ch % 8) + 1
  let bx := folioX f * 17
  let by_ := folioY f * 17
  if face < 8 then alcoveAt (bx + pos) by_
  else if face < 16 then alcoveAt (bx + 16) (by_ + pos)
  else if face < 24 then alcoveAt (bx + pos) (by_ + 16)
  else alcoveAt bx (by_ + pos)

/-- The alcove a host port attaches to (Table 10.2). -/
def portAlcove (p : PortId) : AlcoveId :=
  let f := portFolio p
  alcoveAt (folioX f * 17 + (if p.val < 4 then 0 else 16)) (folioY f * 17 + 8)

/-- The cycles a hop costs (R48): 1 in a folio, 3 across a boundary, 5 across the seam. -/
def hopCost (a b : CarrelId) : Nat :=
  if a.folio = b.folio then 1
  else if (a.x.val = 271 ∧ b.x.val = 272) ∨ (a.x.val = 272 ∧ b.x.val = 271) then 5 else 3

/-- The delay of the spine between the librarians of two folios: 3 cycles a hop, 5 across the seam. -/
def spineDelay (f g : FolioId) : Nat :=
  let d (a b : Nat) : Nat := if a ≤ b then b - a else a - b
  3 * (d (folioX f) (folioX g) + d (folioY f) (folioY g)) +
    (if decide (folioX f < 4) == decide (folioX g < 4) then 0 else 2)
/-- The delay of the control lane from a librarian to the carrels of a folio (R204). -/
def laneDelay (f g : FolioId) : Nat := spineDelay f g + 4
/-- Peer directions in the order of Table 2.2: −X, +X, −Y, +Y, −Z, +Z. -/
def linkDir (l : LinkId) : Nat := l.val / 8
/-- The number of a link in its direction. -/
def linkNum (l : LinkId) : Nat := l.val % 8
/-- The link of a direction and number. -/
def linkOf (dir num : Nat) : LinkId := Fin.ofNat 48 (8 * (dir % 6) + num % 8)

/-- The attach folio of a peer link (Table 2.2). -/
def linkFolio (l : LinkId) : FolioId :=
  let n := linkNum l
  match linkDir l with
  | 0 => folioAt 0 (match n / 2 with | 0 => 0 | 1 => 2 | 2 => 5 | _ => 7)
  | 1 => folioAt 7 (match n / 2 with | 0 => 0 | 1 => 2 | 2 => 5 | _ => 7)
  | 2 => folioAt (match n / 2 with | 0 => 1 | 1 => 2 | 2 => 5 | _ => 6) 0
  | 3 => folioAt (match n / 2 with | 0 => 1 | 1 => 2 | 2 => 5 | _ => 6) 7
  | 4 => folioAt (if n < 4 then 3 else 4) 0
  | _ => folioAt (if n < 4 then 3 else 4) 7

/-! ### Packets (Table 9.2) -/

/-- Bytes of a size code (Table 7.4; 0b111 is a 64-byte granule in a packet). -/
def sizeBytes (size : BitVec 3) : Nat :=
  match size.toNat with
  | 0 => 1 | 1 => 2 | 2 => 4 | 3 => 8 | 4 => 1 | 5 => 2 | 6 => 16 | _ => 64

/-- The bytes a packet's access covers. [log DESIGN CHOICE 5] -/
def Packet.count (p : Packet) : Nat := if p.span = 0 then sizeBytes p.size else p.span.toNat

/-- Data flits of `bs`: 14 bytes each, bytes beyond the access zero (R214). -/
def toFlits : Nat → List Byte → List (BitVec 112)
  | 0, _ => []
  | n + 1, bs => BitVec.ofNat 112 (leNat (bytesAt bs 0 14)) :: toFlits n (bs.drop 14)

/-- Data flits for an access of `n` bytes (R214). -/
def flitsFor (n : Nat) : Nat := if n ≤ 8 then 1 else if n ≤ 16 then 2 else 5

/-- The payload bytes of data flits. -/
def flitBytes (fs : List (BitVec 112)) : List Byte := fs.flatMap (fun f => leBytes 14 f.toNat)

/-- Flit 0, the route header (Table 9.2). -/
def Packet.headFlit (p : Packet) : BitVec 112 :=
  (0 : BitVec 12) ++ p.sport ++ p.say ++ p.sax ++ p.sw ++ p.dport ++ p.day ++ p.dax ++ p.dw ++ p.tag ++ p.ticket ++
    p.len ++ BitVec.ofBool p.sys ++ BitVec.ofBool p.cls ++ BitVec.ofBool p.reply ++ p.type
/-- Flit 1, the operation flit (Table 9.2). -/
def Packet.opFlit (p : Packet) : BitVec 112 :=
  (0 : BitVec 16) ++ p.pcrc ++ (0 : BitVec 8) ++ p.status ++ BitVec.ofBool p.mark ++ p.size ++ p.call
/-- The flits of a packet: header, operation, data (R214). -/
def Packet.flitList (p : Packet) : List (BitVec 112) := p.headFlit :: p.opFlit :: p.data
/-- The packet that flits spell (Table 9.2). -/
def Packet.ofFlits (head op : BitVec 112) (data : List (BitVec 112)) : Packet :=
  { type := head.extractLsb' 0 4, reply := head.getLsbD 4, cls := head.getLsbD 5, sys := head.getLsbD 6,
    len := head.extractLsb' 7 3, ticket := head.extractLsb' 10 16, tag := head.extractLsb' 26 10,
    dw := head.extractLsb' 36 11, dax := head.extractLsb' 47 8, day := head.extractLsb' 55 8,
    dport := head.extractLsb' 63 5, sw := head.extractLsb' 68 11, sax := head.extractLsb' 79 8,
    say := head.extractLsb' 87 8, sport := head.extractLsb' 95 5, call := op.extractLsb' 0 48,
    size := op.extractLsb' 48 3, mark := op.getLsbD 51, status := op.extractLsb' 52 4, pcrc := op.extractLsb' 64 32,
    data := data, span := 0 }

/-- A link word (Table 9.1). Its check bits are Config.linkEcc. [log DESIGN CHOICE 174] -/
def linkWordOf (sync tail head valid : Bool) (credit : BitVec 4) (body : BitVec 112) : BitVec 128 :=
  let w : BitVec 120 :=
    BitVec.ofBool sync ++ BitVec.ofBool tail ++ BitVec.ofBool head ++ BitVec.ofBool valid ++ credit ++ body
  Config.linkEcc w ++ w
/-- BODY of a link word. -/
def linkBody (w : BitVec 128) : BitVec 112 := w.extractLsb' 0 112
/-- VALID of a link word. -/
def linkValid (w : BitVec 128) : Bool := w.getLsbD 116
/-- HEAD of a link word. -/
def linkHead (w : BitVec 128) : Bool := w.getLsbD 117
/-- TAIL of a link word. -/
def linkTail (w : BitVec 128) : Bool := w.getLsbD 118
/-- The link words of flits that follow one another to the packet's last. -/
def flitWords : List (BitVec 112) → List (BitVec 128)
  | [] => []
  | [f] => [linkWordOf false true false true 0 f]
  | f :: fs => linkWordOf false false false true 0 f :: flitWords fs
/-- The link words that carry a packet, its header first (R212). -/
def Packet.linkWords (p : Packet) : List (BitVec 128) :=
  linkWordOf false false true true 0 p.headFlit :: flitWords (p.opFlit :: p.data)

/-- The bytes a packet's PCRC covers: bytes 0–6 of the operation flit, then every data flit (R215). -/
def Packet.crcBytes (p : Packet) : List Byte := leBytes 7 p.opFlit.toNat ++ flitBytes p.data

/-- The packet with its PCRC computed by its sender. -/
def Packet.sealed (p : Packet) : Packet := { p with pcrc := crc32c p.crcBytes }
/-- The endpoint's check of PCRC. -/
def Packet.crcOk (p : Packet) : Bool := p.pcrc == crc32c p.crcBytes

/-- A packet's flits: header, operation, data. -/
def Packet.flits (p : Packet) : Nat := 2 + p.len.toNat

/-- The channel of a packet: request class 0, request class 1, reply class 0, reply class 1 (R216). -/
def Packet.channel (p : Packet) : Nat := 2 * b2n p.reply + b2n p.cls

/-- An all-zero packet, to be filled in. -/
def Packet.blank : Packet :=
  { type := 0, reply := false, cls := false, sys := false, len := 0, ticket := 0, tag := 0, dw := 0, dax := 0,
    day := 0, dport := 0, sw := 0, sax := 0, say := 0, sport := 0, call := 0, size := 0, mark := false,
    status := 0, pcrc := 0, data := [], span := 0 }

/-- The reply to a request: source and destination exchanged, the tag returned, CALL zero. -/
def Packet.answer (p : Packet) (type status : BitVec 4) (data : List Byte) : Packet :=
  let fs := if data.isEmpty then [] else toFlits (flitsFor data.length) data
  Packet.sealed
    { p with type := type, reply := true, cls := false, len := BitVec.ofNat 3 fs.length, dw := p.sw, dax := p.sax,
             day := p.say, dport := p.sport, sw := p.dw, sax := p.dax, say := p.day, sport := p.dport,
             call := 0, status := status, data := fs }

/-- The carrel a packet is for, when its destination port is a carrel's. -/
def Packet.dstCarrel (p : Packet) : CarrelId := (alcoveAt p.dax.toNat p.day.toNat).carrel p.dport.toNat
/-- The carrel a packet came from. -/
def Packet.srcCarrel (p : Packet) : CarrelId := (alcoveAt p.sax.toNat p.say.toNat).carrel p.sport.toNat
/-- The folio a packet's endpoint lies in. -/
def Packet.dstFolio (p : Packet) : FolioId := (alcoveAt p.dax.toNat p.day.toNat).folio
/-- A packet's requester: wafer, alcove and port (R244). -/
def Packet.requester (p : Packet) : BitVec 32 := p.sw ++ p.sax ++ p.say ++ p.sport

/-- A carrel as a requester on wafer `w` (R244). -/
def CarrelId.requester (c : CarrelId) (w : BitVec 11) : BitVec 32 :=
  w ++ BitVec.ofNat 8 c.alcove.ax.val ++ BitVec.ofNat 8 c.alcove.ay.val ++ BitVec.ofNat 5 c.dport
/-- The corrected words of an access. -/
def Ecc.words (e : Ecc) : Nat :=
  match e with
  | .corrected n => n
  | _ => 0
/-- The retries of an access: a bond-link transfer has at most four (Table 18.1). [log DEDUCED 188] -/
def Ecc.retries (e : Ecc) : Nat :=
  match e with
  | .retried n => min 4 n
  | _ => 0
/-- What an access over the bond link of a stacks cell met: the fifth failure of a transfer is an uncorrectable error
(Table 18.1). [log DEDUCED 188] -/
def Ecc.atBond (e : Ecc) : Ecc :=
  match e with
  | .retried n => if 5 ≤ n then .uncorrectable else .retried n
  | e => e
/-- Whether an access met an uncorrectable error. -/
def Ecc.bad (e : Ecc) : Bool := e == .uncorrectable
/-- The archive channel a KIND 0x6 entry names: bits [23:10] (Table 5.3). -/
def ErrataEntry.channelOf (e : ErrataEntry) : Nat := e.a.toNat + e.b.toNat * 128

end Sys2Proof
end

