-- ==== Sys2Proof/Machine/State.lean ====
section
/-! DEFINITION. Machine/State.lean: everything the spec gives the binding, as plain data, and the machine right
after reset (48 V not yet applied; R108, R110, R355). -/

namespace Sys2Proof.Machine

/-! ### Start-up, clocks and power -/

/-- The start stages (Table 5.1). -/
inductive Stage where
  | power | rom | elect | bookplate | clocks | inventory | rebind | audit | calibrate | raise | codex | ready | halted
deriving DecidableEq, Repr

/-- HALTED causes (Table 5.5). -/
inductive HaltCause where
  | none | imprintBad | noCurator | noFolio | globalChecker | stageLimit | restartLimit | curatorLost
deriving DecidableEq, Repr

/-- The mode of the wafer (R129). -/
inductive Mode where
  | normal | blank | plain
deriving DecidableEq, Repr

/-- What start-up waits for beside its stage's own end (R57, R112, R113). -/
inductive StartWait where
  | none
  /-- An alert holds the binding in POWER (R113). -/
  | alertPower
  /-- The strict bit waits for a named port at BOOKPLATE (R57). -/
  | strictPort
  /-- No ready reference: start-up restarts from ROM at the next one (R113). -/
  | refRom
  /-- Every core rail moves to the safe setpoint before CLOCKS begins again (R112). -/
  | safeRails
deriving DecidableEq, Repr

/-- Steps of a resumption sequence (R65, R100). -/
inductive ResumePhase where
  | rails | pll500 | pllTarget
  /-- The meters are calibrated again at the frequency in force (R83). -/
  | calib
  /-- The rails move to the setpoints of the frequency and the trim adopted again. -/
  | trim
deriving DecidableEq, Repr

/-- Steps of a frequency change (R72). -/
inductive FreqPhase where
  | railsFirst | relock | railsLast
  /-- After a failover or a takeover: the safe setpoint, then 500 MHz, then the change again (R103, R118). -/
  | safe | relock500
deriving DecidableEq, Repr

/-- What the wafer is doing instead of plain running (CLK.WAFER_STATE, R62–R72, R97–R103). -/
inductive Activity where
  | none
  /-- A failover or planned switch awaits the relock; `standby` is the field's value when it ends. -/
  | failover (planned : Bool) (lost : PortId) (standby : BitVec 4)
  /-- A dead freeze; `lost` is the last active port. -/
  | dead (lost : PortId)
  | deadResume (ph : ResumePhase)
  | alert
  | alertResume (ph : ResumePhase)
  | freqChange (ph : FreqPhase)
deriving DecidableEq, Repr

/-- Curator command results (Table 14.14). -/
inductive CmdResult where
  | done | busy | refusedNotReady | refusedState | refusedAuth | badImage | noResource | unknown
deriving DecidableEq, Repr

/-- The CLK block (Tables 3.5 to 3.10) and what stands behind it. -/
structure Clk where
  ready       : BitVec 8 := 0
  present     : BitVec 8 := 0
  inWindow    : BitVec 8 := 0
  locked      : BitVec 8 := 0
  active      : PortId := 0
  activeValid : Bool := false
  standby     : BitVec 4 := 0xF
  strict      : Bool := false
  result      : CmdResult := .done
  source      : BitVec 4 := 0
  seq         : BitVec 16 := 0
  evLost      : BitVec 8 := 0
  evFailover  : Bool := false
  evDead      : Bool := false
  evResumed   : Bool := false
  evFallback  : Bool := false
  tick        : DWord := 0
  freq        : BitVec 2 := 3
  target      : BitVec 2 := 0
  dimIdle     : BitVec 24 := 5000
  dark        : DWord := 0
  failovers   : BitVec 16 := 0
  deadFreezes : BitVec 16 := 0
  dimWakes    : Word := 0
  ppmOffset   : Vector Word 8 := .replicate 8 0
  ppmValid    : BitVec 8 := 0
  /-- Bit n: the qualification PLL of port n runs (R51). -/
  qualPll     : BitVec 8 := 0
  /-- A planned switch owes its DONE result until the clocks restart (R60). -/
  switchOwed  : Bool := false
  /-- A frequency change owes its result (R103, R105). -/
  freqOwed    : Bool := false
  /-- An alert was asserted during a failover freeze and holds the restart (R98). -/
  alertHeld   : Bool := false
  /-- The folio PLLs have been started and have an input (R51, R108). -/
  pllsRun     : Bool := false
  /-- The folio PLLs have locked; FIFO pointers and clocks await the next frame edge (R62, R71, R72). -/
  lockWait    : Bool := false
  /-- External tick at which each port's ready flag last set (R57, R115). -/
  readySince  : Vector Nat 8 := .replicate 8 0
deriving DecidableEq, Repr

/-- The PWR block (Tables 4.6 to 4.8), the alert lines and the input. -/
structure Pwr where
  cap         : BitVec 12 := 2200
  capWindow   : BitVec 7 := 10
  ceiling     : Nat := 16
  ceilRun     : Nat := 0
  folioA      : BitVec 9 := 330
  stacksA     : BitVec 9 := 400
  railWindow  : BitVec 7 := 8
  asserted    : BitVec 4 := 0
  latched     : BitVec 4 := 0
  hold        : BitVec 16 := 10000
  now         : BitVec 24 := 0
  avg         : BitVec 24 := 0
  evRail      : Bool := false
  evCap       : Bool := false
  evCapHold   : Bool := false
  evAlert     : Bool := false
  evCancel    : Bool := false
  evCalib     : Bool := false
  evBadWrite  : Bool := false
  throttles   : BitVec 16 := 0
  alerts      : BitVec 16 := 0
  overruns    : Word := 0
  capHold     : Bool := false
  stacksAvg   : Vector (BitVec 10) 4 := .replicate 4 0
  /-- Lines that regulators and external parties hold low (R442). -/
  lines       : BitVec 4 := 0
  /-- Alerts of the coolant monitor, on lines 1 and 3: flow, inlet, junction (Table 19.8). -/
  coolant     : BitVec 3 := 0
  /-- External ticks at which every line was last clear, while the hold count runs (R99). -/
  clearSince  : Option Nat := none
  inputMv     : Nat := 0
  inputDa     : Nat := 0
  /-- Telemetry of the stacks rails and of the input/output rails, as last read over AVSBus (R80, R84). -/
  stacksTel   : Vector Telemetry 4 := .replicate 4 {}
  ioTel       : List (IoRail × Telemetry) := []
  /-- Currents of each stacks rail at the updates of the last 64 µs, in mA, newest first (R86). -/
  stacksRuns  : Vector (List Nat) 4 := .replicate 4 []
  /-- Wafer power at the updates of the last 100 ms, in µW, newest first (R84, R87). -/
  waferRuns   : List Nat := []
  /-- Regulators whose own alert output is asserted (R80). -/
  alertRails  : List (Fin 4 × Rail) := []
  /-- Rows that the AVSBus buses served last (R82). -/
  busLast     : Vector (Fin 8) 8 := .replicate 8 7
  /-- The meters await their calibration after a change of fabric frequency; no pass is admitted (R83). -/
  calibrating : Bool := false
  /-- The input is connected and its regulators run (R433, R434). -/
  powered     : Bool := false
  disconnected : Bool := false
deriving DecidableEq, Repr

/-- One curator (R114, R117). -/
structure Curator where
  romDone  : Bool := false
  eligible : Bool := false
  claim    : Bool := false
  deposed  : Bool := false
deriving DecidableEq, Repr

/-- The CUR stage registers (Table 5.5) and the election. -/
structure Cur where
  stage      : Stage := .power
  cause      : HaltCause := .none
  restarts   : Nat := 0
  mode       : Mode := .normal
  leafB      : Bool := false
  standby    : Bool := false
  takeover   : Bool := false
  stageTick  : Vector DWord 12 := .replicate 12 0
  wait       : StartWait := .none
  curA       : Curator := {}
  curB       : Curator := {}
  /-- External tick of the last heartbeat (R117, R119). -/
  heartbeat  : Nat := 0
  /-- CLK.TICK at entry to the stage in force, for its limit (R108). -/
  entered    : DWord := 0
  /-- A takeover is in progress until the new curator's first heartbeat (R117, R118). -/
  taking     : Bool := false
  /-- Every librarian has stopped its folio clocks (R119). -/
  lost       : Bool := false
deriving DecidableEq, Repr

/-- Folio clock states (Table 3.3). -/
inductive FolioClock where
  | warm | dim | dark | off
deriving DecidableEq, Repr

/-- What the edition makes of a folio (Table 5.6). -/
inductive FolioState where
  | present | passThrough | blocked
deriving DecidableEq, Repr

/-- A capture of the first routed-plane discard (RT_CAPTURE, Table 9.5). -/
structure RtCapture where
  ticket : BitVec 16 := 0
  a      : BitVec 5 := 0
  b      : BitVec 5 := 0
  port   : BitVec 4 := 0
  cause  : BitVec 3 := 0
  valid  : Bool := false
deriving DecidableEq, Repr

/-- One folio: its clock, rail, trim, edition, and the folio-window counters (Tables 4.8, 5.6, 9.5, 13.7, 18.3). -/
structure Folio where
  clock     : FolioClock := .warm
  pll       : Bool := false
  idle      : Nat := 0
  /-- A packet woke it while CLK.FOLIO_DARK still names it (R77). -/
  wakeHeld  : Bool := false
  /-- Its PLL has been started and its wake from Dark awaits the lock (R76). -/
  waking    : Bool := false
  railFrac  : Nat := 16
  railRun   : Nat := 0
  iAvg      : BitVec 10 := 0
  setpoint  : Nat := 800
  railGoal  : Nat := 800
  /-- The AVSBus frame on its way to the regulator: the setpoint it names (R82). -/
  frame     : Option Nat := none
  settled   : Bool := true
  req       : BitVec 3 := 0
  adopted   : BitVec 3 := 0
  ceiling   : BitVec 3 := 4
  allow     : BitVec 2 := 0
  /-- The setting a running trim change moves to (R101, R310). -/
  trimTo    : Option (BitVec 3) := none
  /-- A change wanted while one runs (R310). -/
  trimNext  : Bool := false
  /-- The new allowance is not yet adopted by every carrel: the first step to a lower setpoint waits (R101). -/
  trimWait  : Bool := false
  /-- Telemetry of its core rail as last read (R80). -/
  tel       : Telemetry := {}
  /-- The meter's two calibration points (R83). -/
  calLow    : CalPoint := ⟨0, 0⟩
  calHigh   : CalPoint := ⟨1, 1⟩
  /-- Entries by which the write pointer of the crossing FIFOs on its N, E, S, W side leads the read pointer (R71). -/
  fifoLead  : Vector Nat 4 := .replicate 4 0
  /-- Meter readings of the last 64 µs, in mA, newest first (R83, R85). -/
  runs      : List Nat := []
  overruns  : BitVec 16 := 0
  state     : FolioState := .present
  cause     : BitVec 4 := 0
  faulty    : BitVec 9 := 0
  spares    : BitVec 12 := 0
  dropTicket : BitVec 16 := 0
  dropSys   : BitVec 16 := 0
  dropHdr   : BitVec 16 := 0
  dropRoute : BitVec 16 := 0
  linkCe    : Word := 0
  linkUe    : Word := 0
  blocked   : DWord := 0
  pcrcFail  : Word := 0
  capture   : RtCapture := {}
  sramCe    : BitVec 16 := 0
  sramUe    : BitVec 16 := 0
  stacksCe  : BitVec 16 := 0
  stacksUe  : BitVec 16 := 0
  bondRetry : Word := 0
  planeFlit : BitVec 16 := 0
  planeFifo : BitVec 16 := 0
  ctrlCrc   : BitVec 16 := 0
  payCrc    : BitVec 16 := 0
  replays   : BitVec 48 := 0
  auditFail : BitVec 9 := 0
  junction  : Nat := 0
deriving DecidableEq, Repr

/-! ### The carrel -/

/-- pg (Table 6.7). -/
structure PgReg where
  next   : BitVec 24 := 0
  opcode : BitVec 6 := 0
  valid  : Bool := false
deriving DecidableEq, Repr

/-- st (Table 6.8). -/
structure StReg where
  fcode     : Byte := 0
  faulted   : Bool := false
  piecewise : Bool := false
  pure_     : Bool := false
  allow     : BitVec 2 := 0
  reserve   : BitVec 2 := 0
  overrun   : Bool := false
  replays   : BitVec 16 := 0
deriving DecidableEq, Repr

/-- rc (Table 6.9). -/
structure RcReg where
  cause        : BitVec 4 := 0
  pendingCause : BitVec 4 := 0
  pending      : Bool := false
  recalls      : BitVec 16 := 0
deriving DecidableEq, Repr

/-- What the scalar core is doing. -/
inductive CoreRun where
  /-- No pass. -/
  | idle
  | running
  /-- A recall's effect beat has come and no boundary has been reached yet (R144). -/
  | recalling
  /-- A recall was taken; accesses already started complete (R147). -/
  | quiescing
  | quiesced
  /-- EXIT was executed; the report waits for the store acknowledgements (R186, R224). -/
  | exited
  /-- A fault stopped it (R142). -/
  | faulted
  /-- An overrun stopped it (R155, R175). -/
  | overrun
deriving DecidableEq, Repr

/-- The switch position (R200): the timetable entry in force, its cycles left, the loop count, the slot pointers. -/
structure SwitchPos where
  base    : Nat := 0
  entry   : Nat := 0
  left    : Nat := 0
  inLoop  : Bool := false
  bodyAt  : Nat := 0
  bodyEnd : Nat := 0
  times   : Nat := 0
  send    : Nat := 0
  recv    : Nat := 0
  ended   : Bool := true
deriving DecidableEq, Repr

/-- What the switch holds (R192, R206, R208, R209). -/
structure SwitchRegs where
  w       : Nat := 0
  running : Bool := false
  pos     : SwitchPos := {}
  /-- Flits on the links and in the crossing FIFOs toward this carrel, by input N, E, S, W, oldest first. -/
  linkN   : List Flit := []
  linkE   : List Flit := []
  linkS   : List Flit := []
  linkW   : List Flit := []
  /-- The running CRC-32C of the payload flits sent from local (R208). -/
  txCrc   : Word := 0xFFFFFFFF
  /-- The running CRC-32C of the payload flits received with EG (R209). -/
  rxCrc   : Word := 0xFFFFFFFF
  rxBytes : List Byte := []
  /-- Verdict of the CRC flit: whether the payload's CRC matched. -/
  rxDone  : Option Bool := none
  /-- The working cycle in which the CRC flit arrived (R209). -/
  rxAt    : Nat := 0
deriving DecidableEq, Repr

/-- The registers shelving saves (R141, R288): Table 6.3, the tile in the MX, the switch. -/
structure CarrelRegs where
  g      : Vector Word 32 := .replicate 32 0
  a      : Vector (BitVec 48) 16 := .replicate 16 0
  p      : Vector Bool 8 := .replicate 8 false
  pc     : Word := 0
  pg     : PgReg := {}
  st     : StReg := {}
  rc     : RcReg := {}
  tile   : Memory := []
  switch : SwitchRegs := {}
deriving DecidableEq, Repr

/-- One piece of a load awaiting its reply: tag, and the bytes it fills. -/
structure LoadPiece where
  tag : BitVec 10
  off : Nat
  len : Nat
  /-- The granule of its call number (R236). -/
  granule : Nat
deriving DecidableEq, Repr

/-- A load, reserved load or conditional store awaiting replies (R173). -/
structure PendingLoad where
  pieces : List LoadPiece
  buf    : List Byte
  reg    : BitVec 5
  size   : BitVec 3
  /-- A conditional store: its reply sets g[reg] to 0 or 1 (R172, R245). -/
  isCond : Bool
  /-- It carries an acquire mark (R238). -/
  acquire : Bool
  /-- The call number's space, for the fault of a bad reply (R174). -/
  space  : Nat
deriving DecidableEq, Repr

/-- A store awaiting its acknowledgement (R173). -/
structure PendingStore where
  tag     : BitVec 10
  space   : Nat
  granule : Nat
deriving DecidableEq, Repr

/-- A carrel's reservation (R243). -/
structure Reservation where
  granule : Nat
  size    : BitVec 3
deriving DecidableEq, Repr

/-- What SAVE holds of a shelved pass (R288): registers and SRAM, and whether EXIT was executed. -/
structure SaveImage where
  regs   : CarrelRegs
  sram   : Memory
  exited : Bool
deriving DecidableEq, Repr

/-- One logical carrel (R133): registers, SRAM, its stacks cell, its accesses in flight. -/
structure Carrel where
  regs     : CarrelRegs := {}
  sram     : Memory := []
  stackMem   : Memory := []
  run      : CoreRun := .idle
  /-- The long instruction stopped at an element boundary for a recall: its major opcode and next element. -/
  long     : Option (BitVec 6 × Nat) := none
  /-- The instruction word last fetched. -/
  ir       : Option Word := none
  loads    : List PendingLoad := []
  stores   : List PendingStore := []
  nextTag  : BitVec 10 := 0
  reserved : Option Reservation := none
  /-- Replays of the beat in force (R155). -/
  beatReplays : Nat := 0
  /-- The replay allowance it adopts at its bay's next beat boundary (R101). -/
  allowNext : Option (BitVec 2) := none
  /-- Its stacks port serves the carrel's own request next where a remote one waits too (R139). -/
  cellTurn : Bool := true
  /-- A request of the carrel's own waits at its stacks port (R139). -/
  cellWait : Bool := false
  /-- The ticket its spur stamps (R223). -/
  ticket   : BitVec 16 := 0
  /-- The bay it belongs to while a pass is set up or runs there. -/
  bay      : Option BayId := none
  /-- EXIT was executed in this pass. -/
  exitDone : Bool := false
  /-- Reports made and not yet at the librarians (R207). -/
  repQuiesced : Bool := false
  repExited   : Bool := false
  repFault    : Bool := false
  repOverrun  : Bool := false
  repPlane    : Bool := false
  /-- The state SAVE holds (R288). -/
  save     : Option SaveImage := none
deriving DecidableEq, Repr

/-- A reservation entry at a home (R244): granule, requester, ticket. Oldest first in its list. -/
structure HomeEntry where
  granule   : Nat
  requester : BitVec 32
  ticket    : BitVec 16
deriving DecidableEq, Repr

/-- A queue place at a home (R246). -/
structure QueueEntry where
  granule   : Nat
  requester : BitVec 32
  /-- External tick of its last failure. -/
  failed    : Nat
deriving DecidableEq, Repr

/-- The reservation table and queue of one home. -/
structure Home where
  entries : List HomeEntry := []
  queue   : List QueueEntry := []
deriving DecidableEq, Repr

/-! ### Routed plane -/

/-- A ticket entry of a router (R222). -/
structure TicketEntry where
  ticket : BitVec 16
  ports  : BitVec 9
deriving DecidableEq, Repr

/-- A packet buffered at a router input (R216). -/
structure Buffered where
  port : RouterPort
  pkt  : Packet
  /-- The output it waits for. -/
  out  : RouterPort
  /-- The peer link it was sent toward (R219, R377). -/
  via  : Option LinkId := none
deriving DecidableEq, Repr

/-- One alcove router (R210). -/
structure Router where
  tickets : List TicketEntry := []
  buf     : List Buffered := []
  /-- Free flits of the channel downstream of output port o, channel k, at index 4 o + k. -/
  credit  : Vector Nat 36 := .replicate 36 8
  /-- The input that last won output o, channel k (R217). -/
  lastWin : Vector Nat 36 := .replicate 36 8
deriving DecidableEq, Repr

/-- A packet on a wire: toward the input port of a router, or to the endpoint its header names. -/
inductive Wire where
  | router (a : AlcoveId) (port : RouterPort)
  | endpoint
  | link (l : LinkId)
deriving DecidableEq, Repr

/-- A credit-sync word under way to a router input: a link word of Table 9.1 (R213). -/
structure SyncTransit where
  at_  : AlcoveId
  port : RouterPort
  word : BitVec 128
deriving DecidableEq, Repr

/-- A packet under way. -/
structure Transit where
  dest  : Wire
  pkt : Packet
  /-- The peer link it was sent toward (R219, R377). -/
  via : Option LinkId := none
deriving DecidableEq, Repr

/-! ### The codex and volumes -/

/-- Request classes (R350). -/
inductive Class where
  | urgent | standard | bulk
deriving DecidableEq, Repr

/-- BAYS entry (Table 11.5). -/
structure BayEntry where
  bay      : BayId
  (x0 y0 w h : Nat)
  piecewise : Bool
  spans    : Bool
  reserve  : BitVec 2
  maxTrim  : BitVec 3
  (payDx payDy egrDx egrDy : Nat)
  catBay   : Word
  depth    : Nat
deriving DecidableEq, Repr

/-- WINDOWS entry (Table 12.4). -/
structure WindowEntry where
  bay   : BayId
  space : Nat
  read  : Bool
  write : Bool
  wslot : Nat
  (x0 y0 w h : Nat)
  base  : Nat
  len   : Nat
deriving DecidableEq, Repr

/-- WAFERMAP entry (Table 11.6). -/
structure WaferEntry where
  bay   : BayId
  wslot : Nat
  dw    : BitVec 11
deriving DecidableEq, Repr

/-- CROSSINGS entry. -/
structure CrossingEntry where
  bay  : BayId
  dir  : Nat
  link : Nat
  k    : Nat
  set  : Nat
deriving DecidableEq, Repr

/-- A TICKETS record: a router and its entries (reader, port mask). -/
structure TicketRecord where
  (ax ay : Nat)
  entries : List (ReaderId × BitVec 9)
deriving DecidableEq, Repr

/-- READERS entry (Table 11.7). -/
structure ReaderEntry where
  reader  : ReaderId
  bay     : BayId
  classes : BitVec 3
deriving DecidableEq, Repr

/-- QOS entry. -/
structure QosEntry where
  reader : ReaderId
  cls    : BitVec 2
  weight : Nat
  maxOut : Nat
deriving DecidableEq, Repr

/-- LOANS entry. -/
structure LoanEntry where
  bay     : BayId
  cls     : BitVec 2
  pass    : Word
  request : Word
deriving DecidableEq, Repr

/-- DUPLEX entry. -/
structure DuplexEntry where
  first  : BayId
  second : BayId
deriving DecidableEq, Repr

/-- ALLOW entry (Table 11.8). -/
structure AllowEntry where
  volume   : List Byte
  bay      : BayId
  vslot    : Byte
  impureOk : Bool
deriving DecidableEq, Repr

/-- PROGRAM run, with the timetable its TT names. -/
structure ProgramEntry where
  bay    : BayId
  vslot  : Byte
  set    : Nat
  (dx dy w h : Nat)
  tt     : Nat
  table  : List DWord
  base   : Nat
  primary : Nat
deriving DecidableEq, Repr

/-- ALTERNATE entry. -/
structure AlternateEntry where
  bay  : BayId
  dir  : Nat
  link : Nat
  set  : Nat
deriving DecidableEq, Repr

/-- The sections of a codex in force (R252). -/
structure Codex where
  bays      : List BayEntry := []
  windows   : List WindowEntry := []
  wafermap  : List WaferEntry := []
  crossings : List CrossingEntry := []
  tickets   : List TicketRecord := []
  readers   : List ReaderEntry := []
  qos       : List QosEntry := []
  loans     : List LoanEntry := []
  duplex    : List DuplexEntry := []
  allow     : List AllowEntry := []
  tables    : List (List DWord) := []
  programs  : List ProgramEntry := []
  alternates : List AlternateEntry := []
deriving DecidableEq, Repr

/-- Where a codex load reads from (R264). -/
inductive LoadKind where
  | hostWhole | hostBay | flash | sample (index : BitVec 4) | auto
deriving DecidableEq, Repr

/-- A codex load in progress (R264–R269). -/
structure CodexLoad where
  kind       : LoadKind
  headerRead : Bool := false
  /-- The container's SEQ once its header has been read. -/
  seq        : Word := 0
  /-- The bay a bay load holds. -/
  bay        : BayId := 0
  buf        : List Byte := []
  failedAt   : Option Nat := none
deriving DecidableEq, Repr

/-- The CDX block (Table 11.11). -/
structure Cdx where
  srcAddr : Word := 0
  srcLen  : BitVec 29 := 0
  result  : CmdResult := .done
  check   : Byte := 0
  section_ : Byte := 0
  item    : BitVec 24 := 0
  seq     : BitVec 16 := 0
  codex   : Option Codex := none
  sample  : Bool := false
  cseq    : Word := 0
  profile : BitVec 16 := 0
  floor   : Word := 0
  hash    : List Byte := []
  load    : Option CodexLoad := none
deriving DecidableEq, Repr

/-- A volume in a VSLOT: its header fields (Table 12.1), hash, region and image. -/
structure Volume where
  hash     : List Byte
  pure_    : Bool
  (w h : Nat)
  len      : Nat
  workBase : Nat
  inLen    : Nat
  (inDx inDy : Nat)
  inBase   : Nat
  stacksLen : Nat
  region   : Nat
  /-- Delta metadata (Table 13.1): threshold, width, BM_SRAM, BM_BYTES; none when DELTA = 0. -/
  delta    : Option (Nat × Nat × Nat × Nat)
  /-- The part table, one part per carrel in row-major order, each SRAM image then stacks data. -/
  parts    : List (List Byte)
deriving DecidableEq, Repr

/-- A segmented LOAD_VOLUME in progress (R272, R275). -/
structure VolLoad where
  bay      : BayId
  vslot    : Byte
  /-- The bytes received so far. -/
  bytes    : List Byte := []
  /-- The bytes of the segment still to be read, and whether it is the last. -/
  segLen   : Nat := 0
  last     : Bool := false
  reading  : Bool := false
  /-- External tick of the last segment. -/
  since    : Nat := 0
deriving DecidableEq, Repr

/-- The BAY block's registers (Table 12.7). -/
structure BayRegs where
  selBay   : BayId := 0
  selSlot  : Byte := 0
  srcOff   : Word := 0
  srcLen   : BitVec 29 := 0
  result   : CmdResult := .done
  check    : Byte := 0
  seq      : BitVec 16 := 0
  imgOff   : BitVec 48 := 0
  imgLast  : Bool := false
  load     : Option VolLoad := none
  /-- A PAUSE or RESET that has not posted yet. -/
  pausing  : Option BayId := none
  resetting : Option BayId := none
deriving DecidableEq, Repr

/-! ### Requests and passes -/

/-- A captured request (Tables 14.3, 14.5). -/
structure Request where
  reader  : ReaderId
  cookie  : DWord := 0
  key     : DWord := 0
  bayRaw  : BitVec 16 := 0
  vslot   : Byte := 0
  cls     : BitVec 2 := 0
  outInline : Bool := false
  inInline  : Bool := false
  rsvBad  : Bool := false
  inLen   : Nat := 0
  inAddr  : Nat := 0
  outAddr : Nat := 0
  input   : List Byte := []
  drop    : Option (Fin 8) := none
  /-- CLK.TICK at capture (R326). -/
  capture : DWord := 0
  /-- Order of arrival among captures. -/
  order   : Nat := 0
deriving DecidableEq, Repr

/-- How a request ended (R354, R390): status, detail, and the status of an ending that lost. -/
structure Ending where
  status    : BitVec 4
  detail    : BitVec 4 := 0
  secondary : BitVec 4 := 0
  /-- The recall cause that ranks it (R150), and CLK.TICK when it was decided (R354). -/
  cause     : BitVec 4 := 0
  tick      : DWord := 0
deriving DecidableEq, Repr

/-- A pass (R280) and the request it runs. -/
structure Pass where
  req       : Request
  acc       : DWord := 0
  epoch     : BitVec 4 := 0
  admitted  : DWord := 0
  passLoan  : Word := 0
  reqLoan   : Word := 0
  /-- Setting up: image in SRAM, bookmark known, input written, START issued, START in effect. -/
  copied    : Bool := false
  looked    : Bool := false
  inputDone : Bool := false
  startIssued : Bool := false
  started   : Bool := false
  hit       : Bool := false
  writeBm   : Bool := false
  concurrent : Bool := false
  noBm      : Bool := false
  /-- The stacks-tier slot of its hit (R295). -/
  slot      : Nat := 0
  /-- Carrels whose EXITED, and QUIESCED, report has been counted. -/
  exited    : List Nat := []
  quiesced  : List Nat := []
  /-- The recall in effect (Table 6.5), 0 none. -/
  recallIn    : BitVec 4 := 0
  /-- A FAULT, OVERRUN or PLANE report that withholds the payload has reached the egress carrel's librarian (R94, R209). -/
  report    : Bool := false
  /-- Such a report had been made by the cycle in which the CRC flit arrived: it arrives within the horizon (R94, R209). -/
  late      : Bool := false
  /-- A carrel of the bay, or of its duplex partner, had faulted before the end-to-end check completed (Table 1.1). -/
  faultFirst : Bool := false
  /-- The highest-ranking terminating recall issued for the pass (Table 6.5); 0 none. -/
  stopped   : BitVec 4 := 0
  ending    : Option Ending := none
  /-- The payload whose end-to-end CRC passed. -/
  payload   : Option (List Byte) := none
  /-- The release boundary has passed (R209): released or withheld. -/
  gated     : Bool := false
  released  : Bool := false
  recalls   : Nat := 0
  replays   : Nat := 0
  /-- The request's record has been written (R386). -/
  recorded  : Bool := false
  impure    : Bool := false
  /-- Its duplex partner ended without a payload (Table 18.6 UNPAIRED). -/
  lone      : Bool := false
deriving DecidableEq, Repr

/-- What a bay is doing. -/
inductive BayPhase where
  | idle
  | setup | running | recalled | shelvingOut | shelvingIn | resumeIssued | refreshing
deriving DecidableEq, Repr

/-- A bookmark (R293, R298): tag, tier, recency. In the stacks tier its parts lie in slot `slot` of every carrel's DEVICE
area (R295); in the archive tier they are `parts`, of the bay's carrels in row-major order (R297). -/
structure Bookmark where
  vslot   : Byte
  volume  : List Byte
  reader  : ReaderId
  key     : DWord
  archive : Bool
  set     : Nat
  written : DWord
  recent  : DWord
  slot    : Nat := 0
  parts   : List (List Byte) := []
deriving DecidableEq, Repr

/-- A control word issued and not yet in effect (R204, R205). -/
structure PendingWord where
  /-- The boundary it was issued at: the beat of a bay whose pass cycle advances, else the external tick. -/
  running  : Bool := false
  at_      : Nat := 0
  recallIn   : BitVec 4 := 0
  fraction : BitVec 5 := 0
  op       : BitVec 2 := 0
deriving DecidableEq, Repr

/-- A bay of the codex in force. -/
structure Bay where
  phase     : BayPhase := .idle
  pass      : Option Pass := none
  shelved   : Option Pass := none
  /-- A pass admitted by preemption, or restored, that waits for the bay's carrels (R287). -/
  next      : List Pass := []
  /-- SECOND bay: FIRST has restored its shelved pass (R422). -/
  restoreOwed : Bool := false
  vslots    : Tbl (Option Volume) := []
  lastSlot  : Byte := 0
  /-- The image of `lastSlot` stands in SRAM whole. -/
  warm      : Bool := false
  /-- A LOAD_VOLUME was done since the last pass was set up: the next one copies its whole image (R280). -/
  loaded    : Bool := false
  pausing   : Bool := false
  paused    : Bool := false
  /-- Control words issued and not yet in effect, oldest first: each takes effect 4 beats after its own issue (R204). -/
  words     : List PendingWord := []
  /-- The completed pass whose bookmark write-back is under way (R303). -/
  writing   : Option Pass := none
  /-- The fraction in effect on every carrel (R89). -/
  frac      : Nat := 16
  /-- The fraction last issued. -/
  fracSent  : Nat := 16
  /-- Urgent passes completed since the shelving (Table 12.5 row 2). -/
  urgentDone : Nat := 0
  /-- Standard admissions since the last bulk admission (row 4). -/
  stdRun    : Nat := 0
  /-- Readers' counters, standard and bulk (R286). -/
  ctrStd    : Tbl Int := []
  ctrBulk   : Tbl Int := []
  passes    : Word := 0
  preempts  : BitVec 16 := 0
  resets    : BitVec 16 := 0
  chash     : List Byte := []
  bookmarks : List Bookmark := []
  ovfSets   : BitVec 24 := 0
  bmHits    : Word := 0
  bmOvf     : Word := 0
  bmDelta   : Word := 0
  bmAtT     : Word := 0
  bmConc    : BitVec 16 := 0
  bmNoWay   : BitVec 16 := 0
  bmEvict   : Word := 0
  bmPathBad : Bool := false
  bmBadWrite : Bool := false
  /-- The alternate set in force, and the one a wave asks for (R382). -/
  altSet    : Nat := 0
  waveSet   : Option Nat := none
  waveHold  : Bool := false
  partsNotReady : List (BitVec 11) := []
  /-- Abort waves recorded for its current pass: origin, number (R379). -/
  waves     : List (BitVec 11 × BitVec 16) := []
  /-- A shelved pass awaits restoration after a Dim wake. -/
  dimWaking : Bool := false
deriving DecidableEq, Repr

/-! ### Readers and the host link -/

/-- A ring's configuration and the driver's and device's pointers (R321–R325). -/
structure Ring where
  base  : Word := 0
  size  : BitVec 4 := 0
  head  : BitVec 12 := 0
  tail  : BitVec 12 := 0
  phase : Bool := true
deriving DecidableEq, Repr

/-- A notice before it has a PHASE (Table 14.9): code, tick, ARG. -/
structure Notice where
  code : Byte
  tick : DWord
  arg  : List Byte
deriving DecidableEq, Repr

/-- A verdict record held for an away reader (R341): the record, the payload writes, and when. -/
structure Held where
  acc     : DWord
  record  : List Byte
  payload : List Byte
  outAddr : Nat
  outInline : Bool
  vhash   : List Byte
  ticket  : BitVec 16
  /-- External tick at which the record would have been written (R341). -/
  since   : Nat
  vector  : Nat
deriving DecidableEq, Repr

/-- An MSI-X vector (R339). -/
structure Vector4 where
  addr   : DWord := 0
  data   : Word := 0
  masked : Bool := true
  pba    : Bool := false
  /-- External tick of its last message. -/
  last   : Option Nat := none
  owed   : Bool := false
deriving DecidableEq, Repr

/-- A book-drop slot (R330, R331). -/
structure DropSlot where
  bytes    : Memory := []
  captured : Bool := false
deriving DecidableEq, Repr

/-- A host read a port controller has started for a reader (R328). -/
inductive Reading where
  | descriptor (capture : DWord) (order : Nat)
  | input (req : Request)
  /-- The descriptor is read; its input waits for room in the port's input buffer (R328). -/
  | room (req : Request)
deriving DecidableEq, Repr

/-- A reader slot (R348): its RDR block (Tables 14.16, 15.3), book drop, MSI-X, shelf and held records. -/
structure Reader where
  epoch    : BitVec 4 := 0
  window   : DWord := 0
  reqEn    : Bool := false
  verEn    : Bool := false
  notEn    : Bool := false
  dropEn   : Bool := false
  holdoff  : BitVec 16 := 0
  reqRing  : Ring := {}
  verRing  : Ring := {}
  notRing  : Ring := {}
  refused  : BitVec 16 := 0
  shelfDrops : BitVec 16 := 0
  dropRejects : BitVec 16 := 0
  badWrites : BitVec 16 := 0
  overdue  : Vector (BitVec 16) 3 := .replicate 3 0
  cancelled : Vector (BitVec 16) 3 := .replicate 3 0
  loanBay  : BayId := 0
  loanCls  : BitVec 2 := 0
  busMaster : Bool := false
  d3hot    : Bool := false
  msixEn   : Bool := false
  msixMask : Bool := false
  vectors  : Vector Vector4 4 := .replicate 4 {}
  drop     : Vector DropSlot 8 := .replicate 8 {}
  /-- Captures announced by doorbells and not yet read: the tail they reach, the capture tick, the order. -/
  announced : List (BitVec 12 × DWord × Nat) := []
  reading  : Option Reading := none
  /-- Captured book-drop requests that wait for a verdict entry, with the refusal found at capture (R332, R336). -/
  dropWait : List (Request × Option (BitVec 4)) := []
  shelf    : List Notice := []
  overflow : Word := 0
  held     : List Held := []
  resetting : Bool := false
  deferred : Bool := false
  /-- A READER_RESET command waits for this reset (R357 step 6). -/
  resetCmd : Bool := false
deriving DecidableEq, Repr

/-- A posted request write that waits in a port controller (R326). -/
inductive WaitingWrite where
  | doorbell (tail : BitVec 12)
  /-- A write of book-drop bytes from an offset of the book drop. -/
  | drop (offset : Nat) (bytes : List Byte)
deriving DecidableEq, Repr

/-- One host port (Table 14.15). -/
structure Port where
  linkUp   : Bool := false
  speed    : BitVec 2 := 0
  flit     : Bool := false
  width    : BitVec 5 := 0
  perst    : Bool := true
  present  : Bool := false
  vfEnable : Bool := false
  numVfs   : BitVec 9 := 0
  evDown   : Bool := false
  evUp     : Bool := false
  evPerst  : Bool := false
  evHot    : Bool := false
  downs    : BitVec 16 := 0
  flrs     : BitVec 16 := 0
  aerCe    : BitVec 16 := 0
  aerUe    : BitVec 16 := 0
  captures : Word := 0
  records  : Word := 0
  /-- Its shadow of CUR.STAGE shows HALTED with this cause (R115, R119). -/
  shadow   : HaltCause := .none
  /-- Held out of service by self-audit (class 10). -/
  out      : Bool := false
  /-- Posted request writes waiting for the first tick of service, in their order of arrival (R67, R111, R326). -/
  waiting  : List (ReaderId × WaitingWrite) := []
deriving DecidableEq, Repr

/-- What a posted write toward host memory is (R320, R250, R339). -/
inductive PostKind where
  | payload | verdict | notice | msix | drain | mirror | certificate | challenge
  /-- A device store into space 3 (R250). -/
  | store
deriving DecidableEq, Repr

/-- A posted write the device has sent, by the function that owns it. -/
structure Posted where
  kind : PostKind
  fn   : ReaderId
  addr : Nat
  bytes : List Byte
deriving DecidableEq, Repr

/-- What a host access was last answered with. -/
inductive Completion where
  | none
  | data (bytes : List Byte)
  | unsupported
deriving DecidableEq, Repr

/-! ### Ledger, flash, mailbox -/

/-- A ledger record staged (R386–R396): its index, its chain epoch and its 128 bytes; `lost` once unreadable. -/
structure Staged where
  index : Nat
  epoch : BitVec 16
  bytes : List Byte
  lost  : Bool := false
deriving DecidableEq, Repr

/-- The ledger and the LED block (Table 17.8). -/
structure Ledger where
  epoch     : BitVec 16 := 0
  era       : BitVec 16 := 0
  plain     : Bool := false
  started   : Bool := false
  nextIndex : Nat := 0
  nextCtr   : BitVec 48 := 1
  head      : List Byte := []
  staged    : List Staged := []
  /-- Records in the archive ring are told from those on the shelf by the archive's service (R392). -/
  ring      : Bool := false
  capacity  : Nat := 65536
  reserved  : Nat := 16
  wasHalf   : Bool := false
  wasFull   : Bool := false
  drainEn   : Bool := false
  drBase    : Word := 0
  drSize    : BitVec 5 := 0
  mirror    : Word := 0
  drHead    : BitVec 20 := 0
  drTail    : BitVec 20 := 0
  /-- Records of `staged` written to the drain ring and not freed. -/
  written   : Nat := 0
  /-- The owner function has been away since the ring was last written to (R396). -/
  drAway    : Bool := false
  evHalf    : Bool := false
  evFull    : Bool := false
  evLost    : Bool := false
  evBad     : Bool := false
  checkpoints : Word := 0
  rewrites  : BitVec 16 := 0
  lostCount : BitVec 16 := 0
  lastCp    : List Byte := []
  /-- Records appended since the last checkpoint was formed, and its tick (R397). -/
  sinceCp   : Nat := 0
  cpTick    : DWord := 0
  /-- A checkpoint is being written; another is wanted when it commits. -/
  cpBusy    : Bool := false
  cpAgain   : Bool := false
  cpSeq     : DWord := 0
  /-- CP_SEQ of this epoch's start checkpoint (Table 20.3 check 4); admission waits for its commit (R400). -/
  startCp   : Option DWord := none
  /-- A mailbox command waits for the commit of the checkpoint being written, or of the next one. -/
  cpCmd     : Bool := false
  cpNext    : Bool := false
  /-- A CLOSE record ended the epoch; every checkpoint carries CLOSE (R456). -/
  closed    : Bool := false
  /-- Slot of the checkpoint ring that the next checkpoint takes (R404). -/
  cpSlot    : Nat := 0
  /-- Stacks staging shelf carrels are fixed (R392). -/
  shelfFixed : Bool := false
  /-- The folio whose first 128 logical carrels hold the staging shelf (R392). -/
  shelfFolio : Option FolioId := none
deriving DecidableEq, Repr

/-- One step of a flash write (R404, R405): a program of bytes at an offset, or an erase of a span. -/
inductive FlashStep where
  | program (off : Nat) (bytes : List Byte)
  | erase (off len : Nat)
deriving DecidableEq, Repr

/-- What a flash write was for. -/
inductive FlashJobKind where
  | checkpoint (slot : Nat) (bytes : List Byte)
  | bookplate (slotB : Bool) (bytes : List Byte)
  | errata (bytes : List Byte)
  | codexStore
  | clearCodex
  | firmware (imageB : Bool)
  /-- Step 3 of R455: the slot written, none where no slot is in force. -/
  | relinquish (slotB : Option Bool)
  /-- The sector that the checkpoint ring keeps erased ahead of use (R404). -/
  | ahead
deriving DecidableEq, Repr

/-- A flash write in progress. -/
structure FlashJob where
  kind  : FlashJobKind
  steps : List FlashStep
  /-- The steps of the whole object, for R406. -/
  whole : List FlashStep
deriving DecidableEq, Repr

/-- An NVS command in progress. -/
inductive NvsCmd where
  | storeCodex | clearCodex | storeFirmware
deriving DecidableEq, Repr

/-- The NVS block (Table 17.9) and the bookplate in force. -/
structure Nvs where
  slot     : BitVec 2 := 2
  flashOk  : Bool := false
  fwB      : Bool := false
  keys     : List (List Byte) := []
  seq      : Word := 0
  set      : DWord := 0
  srcOff   : Word := 0
  srcLen   : BitVec 29 := 0
  result   : CmdResult := .done
  check    : Byte := 0
  rseq     : BitVec 16 := 0
  readOff  : BitVec 27 := 0
  evTorn   : Bool := false
  evTornCp : Bool := false
  evNoFlash : Bool := false
  /-- Erase counts of the sectors of the checkpoint ring. -/
  wear     : Tbl Nat := []
  cmd      : Option NvsCmd := none
  buf      : List Byte := []
  /-- Flash writes, the head's first step the next operation. -/
  jobs     : List FlashJob := []
  /-- An operation is in progress in the flash. -/
  busy     : Bool := false
  /-- A freeze or takeover stopped the curator between flash commands (R406). -/
  stopped  : Bool := false
deriving DecidableEq, Repr

/-- Mailbox commands (Table 14.13). -/
inductive MbxOp where
  | waferReset | bookplateWrite | keyEnroll | keyRevoke | readerReset | ledgerCheckpoint | relinquish
  | challengeIssue | challengeUnlock | challengeRecover
deriving DecidableEq, Repr

/-- The steps of R455 that a relinquish still has to take. -/
inductive RelinquishStep where
  | closing | bookplate | zeroise | certificate
deriving DecidableEq, Repr

/-- The command mailbox (Table 14.12). -/
structure Mbx where
  dataOff : Word := 0
  dataLen : BitVec 29 := 0
  args    : Vector DWord 8 := .replicate 8 0
  out     : Vector DWord 8 := .replicate 8 0
  result  : CmdResult := .done
  running : Option MbxOp := none
  runTag  : BitVec 16 := 0
  tag     : BitVec 16 := 0
  seq     : BitVec 16 := 0
  buf     : List Byte := []
  /-- The outstanding challenge: its 64 bytes (R458). -/
  nonce   : Option (List Byte) := none
  /-- Private test access is open (R459). -/
  unlocked : Bool := false
  relinq  : Option RelinquishStep := none
  relSigner : List Byte := []
  relOffset : Nat := 0
  relRecover : Bool := false
deriving DecidableEq, Repr

/-! ### Integrity, management, test port, peer links -/

/-- The INT block (Table 18.6). -/
structure IntBlock where
  failed    : BitVec 16 := 0
  done      : Bool := false
  pass      : Bool := false
  withdrawn : BitVec 7 := 0
  ticks     : Word := 0
  folios    : DWord := 0
  ports     : Byte := 0
  standby   : Bool := false
  compared  : Word := 0
  mismatches : BitVec 16 := 0
  unpaired  : BitVec 16 := 0
  misAcc    : DWord := 0
  misFirst  : BayId := 0
  misSecond : BayId := 0
  misOffset : BitVec 12 := 0
  misValid  : Bool := false
  archCe    : Word := 0
  archUe    : BitVec 16 := 0
  archRetry : BitVec 16 := 0
  evSram    : Bool := false
  evStacks  : Bool := false
  evArchive : Bool := false
  evPlane   : Bool := false
  evMismatch : Bool := false
  channels  : BitVec 256 := 0
deriving DecidableEq, Repr

/-- The INV block (Table 5.6): the errata in force and the edition. -/
structure Inv where
  present   : DWord := 0
  passMask  : DWord := 0
  tag       : Word := 0
  valid     : Bool := false
  factory   : List ErrataEntry := []
  field     : List ErrataEntry := []
  new       : List ErrataEntry := []
  evNew     : Bool := false
  evFull    : Bool := false
  evChanged : Bool := false
  index     : BitVec 16 := 0
deriving DecidableEq, Repr

/-- The management target (R446–R450) and the coolant monitor (R445). -/
structure Mgmt where
  inlet    : Int := 0
  outlet   : Int := 0
  flow     : Nat := 0
  warn     : Byte := 0
  /-- WARN bits set and not yet acknowledged; SMBALERT# is asserted while there are any (R450). -/
  unacked  : Byte := 0
  result   : CmdResult := .done
  seq      : Byte := 0
  /-- The bytes of the last Block Read, and whether the last transaction was acknowledged. -/
  reply    : List Byte := []
  acked    : Bool := false
deriving DecidableEq, Repr

/-- The boundary cells (R451), by name: the maker's BSDL file orders them. -/
structure Boundary where
  perst  : Byte := 0
  prsnt  : Byte := 0
  scl    : Bool := false
  sda    : Bool := false
  smbAlert : Bool := false
  alert  : BitVec 4 := 0
deriving DecidableEq, Repr

/-- The register the test port has selected (Table 20.1). -/
inductive TapReg where
  | boundary | idcode | bypass
deriving DecidableEq, Repr

/-- The public test port (R451, R452). -/
structure Jtag where
  instr    : Byte := 0x01
  reg      : TapReg := .idcode
  shift    : Word := 0x1A5C13F3
  cells    : Boundary := {}
  /-- EXTEST or HIGHZ holds the ring and froze the wafer. -/
  holds    : Bool := false
deriving DecidableEq, Repr

/-- LNK.LINK[n] states (Table 16.5). -/
inductive LinkState where
  | off | training | routed | mesochronous | failed | miswired
deriving DecidableEq, Repr

/-- One peer link (Tables 16.2, 16.5). -/
structure Link where
  state    : LinkState := .off
  /-- The training stage in progress, 1–4; 0 none. -/
  stage    : Nat := 0
  disable  : Bool := false
  passed4  : Bool := false
  latency  : BitVec 20 := 0
  offset   : Word := 0
  offValid : Bool := false
  replays  : BitVec 16 := 0
  fecCe    : BitVec 16 := 0
  drops    : BitVec 16 := 0
  fails    : BitVec 16 := 0
  partner  : Option (DWord × BitVec 2) := none
  /-- Highest SEQ received in order; none before the first codeword. -/
  rxSeq    : Option (BitVec 7) := none
  /-- The partner's last valid ACK. -/
  txAck    : Option (BitVec 7) := none
  nackSent : Bool := false
  /-- External ticks of the replays of the last 600 ticks (R377). -/
  replayAt : List Nat := []
  /-- External tick of the last good codeword; 0 before the link was first in service. -/
  lastGood : Nat := 0
  /-- External tick at which training may start again (R367). -/
  retryAt  : Option Nat := none
  /-- Scheduled words received and not yet delivered to the switch (R371). -/
  words    : List Flit := []
  /-- Scheduled words placed toward the partner, oldest first (R371). -/
  sent     : List Flit := []
  /-- Flits of the routed packet whose last word has not arrived (R371). -/
  partial_ : List (BitVec 112) := []
deriving DecidableEq, Repr

/-- The LNK block's own registers (Table 16.4). -/
structure Lnk where
  catId      : Word := 0
  shape      : BitVec 11 := 0
  coord      : BitVec 11 := 0
  evFailed   : Bool := false
  evRestored : Bool := false
  evMiswired : Bool := false
  evMesoLost : Bool := false
  evConflict : Bool := false
  originated : BitVec 16 := 0
  received   : BitVec 16 := 0
  adoptions  : BitVec 16 := 0
  waveNo     : BitVec 16 := 0
deriving DecidableEq, Repr

/-- The PORT block's own registers (Table 14.15). -/
structure PortRegs where
  owner    : PortId := 0
  hold     : BitVec 20 := 2000
  late     : BitVec 16 := 0
  discards : BitVec 16 := 0
  select   : ReaderId := 0
  evTrimBackoff : Bool := false
  evTrimBad : Bool := false
  bkmSelect : BayId := 0
deriving DecidableEq, Repr

/-- The imprint (R411): fuses that no command writes. -/
structure Imprint where
  /-- The meter's coefficients in mA for one count a microsecond, in the order of R83: MX issues, tree-walker steps, SRAM
  bank accesses, stacks port transfers, switch flits, router flits; and its leakage term in mA. -/
  coeffs  : Vector Nat 6 := .replicate 6 0
  leakage : Nat := 0
  serial  : DWord := 0
  b2      : Bool := false
  /-- The identity secret, which curator ROM alone reads (R411); the device key follows from it (R399). -/
  secret  : BitVec 256 := 0
  /-- The bounds of the tuning code that the offset of a reference is measured against (R54). -/
  tuneLow  : Nat := 0
  tuneHigh : Nat := 0
  factory : List ErrataEntry := []
  /-- Archive channels that are absent or do not work are told by INVENTORY; this is the fuse check's outcome. -/
  ok      : Bool := true
deriving DecidableEq, Repr

/-- Why a step stops. No rule of the spec makes the block stop on a command, so nothing raises it: a command that
finds the block in a state in which its event cannot occur leaves the state unchanged (notes/assumptions/1). -/
inductive Fault where
  /-- Raised by nobody; safe (a reason that no step gives). -/
  | neverRaised
deriving DecidableEq, Repr

/-- Why a command has no meaning. -/
inductive Refusal where
  /-- Raised by exec's own arm of a command that has no meaning yet; safe (the machine stops). -/
  | notModelled (mnemonic : String)
deriving DecidableEq, Repr

/-- The binding. -/
structure State where
  clk      : Clk := {}
  pwr      : Pwr := {}
  cur      : Cur := {}
  act      : Activity := .none
  inv      : Inv := {}
  int      : IntBlock := {}
  cdx      : Cdx := {}
  bayRegs  : BayRegs := {}
  led      : Ledger := {}
  nvs      : Nvs := {}
  mbx      : Mbx := {}
  lnk      : Lnk := {}
  portRegs : PortRegs := {}
  mgmt     : Mgmt := {}
  jtag     : Jtag := {}
  imprint  : Imprint := {}
  folios   : Tbl Folio := []
  ports    : Tbl Port := []
  links    : Tbl Link := []
  carrels  : Tbl Carrel := []
  routers  : Tbl Router := []
  bays     : Tbl Bay := []
  readers  : Tbl Reader := []
  homes    : Tbl Home := []
  net      : List Transit := []
  /-- Credit-sync words under way, oldest first (R213). -/
  syncs    : List SyncTransit := []
  cands    : List Request := []
  /-- Refusals that wait for staging (R393): the request and its detail. -/
  waits    : List (Request × BitVec 4) := []
  archive  : Memory := []
  flash    : Memory := []
  posted   : List Posted := []
  reply    : Completion := .none
  /-- External ticks since power was applied: time that no freeze stops (R341). -/
  ext      : Nat := 0
  /-- Captures so far, the order of arrival (R326). -/
  arrivals : Nat := 0
  /-- The model's own count of free values drawn (entropy, signatures): not the spec's. -/
  free     : Nat := 0
  pending  : List Instr := []
deriving DecidableEq, Repr

/-- The binding with 48 V not yet applied: every register at its reset value, memory with nothing listed.
[log DESIGN CHOICE 1, 6, 7] -/
def State.reset : State := {}

end Sys2Proof.Machine
end

