-- ==== Sys2Proof/Machine/Ops.lean ====
section
/-! DEFINITION. Machine/Ops.lean: the named operations over the tables of the state, the packets on wires,
and the locations of chapter 10. -/

namespace Sys2Proof.Machine

/-! ### Tables -/

/-- A folio. -/
def State.folio (s : State) (f : FolioId) : Folio := Tbl.get {} s.folios f.val
/-- Change a folio. -/
def State.modFolio (s : State) (f : FolioId) (g : Folio → Folio) : State :=
  { s with folios := Tbl.set {} s.folios f.val (g (s.folio f)) }
/-- A host port. -/
def State.port (s : State) (p : PortId) : Port := Tbl.get {} s.ports p.val
/-- Change a host port. -/
def State.modPort (s : State) (p : PortId) (g : Port → Port) : State :=
  { s with ports := Tbl.set {} s.ports p.val (g (s.port p)) }
/-- A peer link. -/
def State.link (s : State) (l : LinkId) : Link := Tbl.get {} s.links l.val
/-- Change a peer link. -/
def State.modLink (s : State) (l : LinkId) (g : Link → Link) : State :=
  { s with links := Tbl.set {} s.links l.val (g (s.link l)) }
/-- A carrel. -/
def State.carrel (s : State) (c : CarrelId) : Carrel := Tbl.get {} s.carrels c.key
/-- Put a carrel. -/
def State.setCarrel (s : State) (c : CarrelId) (k : Carrel) : State :=
  { s with carrels := Tbl.set {} s.carrels c.key k }
/-- Change a carrel. -/
def State.modCarrel (s : State) (c : CarrelId) (g : Carrel → Carrel) : State := s.setCarrel c (g (s.carrel c))
/-- A router. -/
def State.router (s : State) (a : AlcoveId) : Router := Tbl.get {} s.routers a.key
/-- Change a router. -/
def State.modRouter (s : State) (a : AlcoveId) (g : Router → Router) : State :=
  { s with routers := Tbl.set {} s.routers a.key (g (s.router a)) }
/-- A bay. -/
def State.bay (s : State) (b : BayId) : Bay := Tbl.get {} s.bays b.toNat
/-- Change a bay. -/
def State.modBay (s : State) (b : BayId) (g : Bay → Bay) : State :=
  { s with bays := Tbl.set {} s.bays b.toNat (g (s.bay b)) }
/-- A reader slot. -/
def State.reader (s : State) (r : ReaderId) : Reader := Tbl.get {} s.readers r.toNat
/-- Change a reader slot. -/
def State.modReader (s : State) (r : ReaderId) (g : Reader → Reader) : State :=
  { s with readers := Tbl.set {} s.readers r.toNat (g (s.reader r)) }
/-- The reservation table of a home. -/
def State.home (s : State) (h : Nat) : Home := Tbl.get {} s.homes h
/-- Change the reservation table of a home. -/
def State.modHome (s : State) (h : Nat) (g : Home → Home) : State :=
  { s with homes := Tbl.set {} s.homes h (g (s.home h)) }

/-- All folios, all ports, all links. -/
def allFolios : List FolioId := List.finRange 64
/-- All host ports. -/
def allPorts : List PortId := List.finRange 8
/-- All peer links. -/
def allLinks : List LinkId := List.finRange 48

/-- Change every folio. -/
def State.mapFolios (s : State) (g : FolioId → Folio → Folio) : State :=
  allFolios.foldl (fun t f => t.modFolio f (g f)) s

/-! ### Freezes and stages -/

/-- A freeze is in force: CLK.WAFER_STATE 1 to 3 (R62, R63, R97, R65, R100). -/
def State.frozen (s : State) : Bool :=
  match s.act with
  | .failover .. | .dead _ | .deadResume _ | .alert | .alertResume _ => true
  | _ => false

/-- The folio clocks run: a reference stands behind the folio PLLs, no freeze, no relock under way, and the curators have
not been lost (R51, R62, R119). -/
def State.fabricRuns (s : State) : Bool :=
  !s.frozen && !s.cur.lost && s.pwr.powered && s.clk.activeValid && s.clk.pllsRun &&
    (match s.act with
     | .freqChange .relock | .freqChange .relock500 => false
     | _ => true)

/-- Start-up has reached READY (R108). -/
def State.isReady (s : State) : Bool := s.cur.stage == .ready

/-- A reference is active and its edges advance CLK.TICK: no dead freeze (R68). [log DESIGN CHOICE 10] -/
def State.tickRuns (s : State) : Bool :=
  s.clk.activeValid &&
    (match s.act with
     | .dead _ => false
     | _ => true)

/-! ### The edition and the channels -/

/-- A folio is present in the edition (R46). -/
def State.present (s : State) (f : FolioId) : Bool := bitOf s.inv.present f.val
/-- A folio is blocked: neither present nor pass-through (R45). -/
def State.isBlocked (s : State) (f : FolioId) : Bool := (s.folio f).state == .blocked
/-- A channel is populated (R43). -/
def State.channelPopulated (s : State) (ch : Nat) : Bool := decide (ch < 256) && (!s.imprint.b2 || decide (ch % 8 < 4))

/-- The errata in force: the union of factory, field and new entries (R123). -/
def State.errata (s : State) : List ErrataEntry := s.inv.factory ++ s.inv.field ++ s.inv.new
/-- A channel is populated, no erratum names it, self-audit passed it and its attach folio is not blocked (R47). -/
def State.channelInService (s : State) (ch : Nat) : Bool :=
  s.channelPopulated ch && !bitOf s.int.channels ch && !s.errata.any (fun e => e.kind == 6 && e.channelOf == ch) &&
    !s.isBlocked (faceFolio (ch / 8))
/-- A host port is in service: its attach folio is not blocked, and self-audit left it (R47, R421). -/
def State.portInService (s : State) (p : PortId) : Bool := !s.isBlocked (portFolio p) && !(s.port p).out

/-! ### Packets on wires -/

/-- Put packets on the wire into the router of an alcove. [log DESIGN CHOICE 34] -/
def State.inject (s : State) (a : AlcoveId) (port : RouterPort) (ps : List Packet) : State :=
  { s with net := s.net ++ ps.map (fun p => { dest := .router a port, pkt := p }) }

/-- The input port of a carrel's row: L0–L3 are ports 4–7 (R210). -/
def rowPort (port : Nat) : RouterPort := Fin.ofNat 9 (4 + port / 4 % 4)

/-- A reply leaves its endpoint toward the router the endpoint attaches to. [log DESIGN CHOICE 34] -/
def State.reply_ (s : State) (p : Packet) : State :=
  s.inject (alcoveAt p.sax.toNat p.say.toNat) (if p.sport.toNat < 16 then rowPort p.sport.toNat else 8) [p]

/-- Two packets have one identity: source, destination, type, direction and tag. [log DEDUCED 37] -/
def samePacket (p q : Packet) : Bool :=
  p.type == q.type && p.reply == q.reply && p.tag == q.tag && p.sw == q.sw && p.sax == q.sax && p.say == q.say &&
    p.sport == q.sport && p.dw == q.dw && p.dax == q.dax && p.day == q.day && p.dport == q.dport
/-- Two packets are of one flow: equal source, destination and VC; a wire delivers them in the order sent (R221). -/
def sameFlow (p q : Packet) : Bool :=
  p.reply == q.reply && p.sw == q.sw && p.sax == q.sax && p.say == q.say && p.sport == q.sport && p.dw == q.dw &&
    p.dax == q.dax && p.day == q.day && p.dport == q.dport
/-- The packet under way on a wire with a packet's identity: the oldest of its flow there, none where another of the flow
stands before it (R221). [log DESIGN CHOICE 34] -/
def State.onWire (s : State) (dest : Wire) (p : Packet) : Option Transit :=
  (s.net.find? (fun t => t.dest == dest && sameFlow t.pkt p)).filter (fun t => samePacket t.pkt p)
/-- The packet that arrives off a wire: the one under way there, one from outside the wafer's routers where none of its flow
is, and none while an older one of its flow is. [log DEDUCED 37] -/
def State.nextPacket (s : State) (dest : Wire) (p : Packet) : Option Transit :=
  if s.net.any (fun t => t.dest == dest && sameFlow t.pkt p) then s.onWire dest p else some { dest := dest, pkt := p }
/-- Take a packet off its wire, where it is there: the oldest one with its identity. [log DEDUCED 37] -/
def State.takeOff (s : State) (dest : Wire) (p : Packet) : State :=
  { s with net := s.net.eraseP (fun t => t.dest == dest && samePacket t.pkt p) }

/-! ### Replies of an endpoint (R214, R215) -/

/-- Bytes that the spec does not state: free values (Config.strayData). [log DESIGN CHOICE 27] -/
def State.stray (s : State) (n : Nat) : List Byte :=
  (List.range n).map (fun i => BitVec.ofNat 8 (Config.strayData (s.free + i)).toNat)
/-- The free values are drawn. [log DESIGN CHOICE 11] -/
def State.drawn (s : State) (n : Nat) : State := { s with free := s.free + n }

/-- DATA replies READ and RESV, ACK the others. [log DEDUCED 33] -/
def replyType (type : BitVec 4) : BitVec 4 := if type = 1 ∨ type = 3 then 1 else 2
/-- A DATA reply with its bytes, or an ACK. -/
def State.answerOk (s : State) (q : Packet) (bs : List Byte) : State := s.reply_ (q.answer (replyType q.type) 0 bs)
/-- A reply that carries no result: its data bytes are free. [log DESIGN CHOICE 27] -/
def State.answerBad (s : State) (q : Packet) (status : BitVec 4) : State :=
  if replyType q.type = 1 then (s.reply_ (q.answer 1 status (s.stray q.count))).drawn q.count
  else s.reply_ (q.answer 2 status [])

/-- The endpoint's answer to a packet that fails its PCRC: it is counted in the folio, and a request is answered CRC with
nothing performed (R215). -/
def State.crcRefused (s : State) (q : Packet) : State :=
  let t := s.modFolio q.dstFolio (fun x => { x with pcrcFail := satInc x.pcrcFail })
  if q.reply then t else t.answerBad q 2

/-! ### Call numbers and locations (chapter 10) -/

/-- The space of a call number (R228). -/
def callSpace (call : BitVec 48) : Nat := natBits call.toNat 44 4

/-- Where a call number points: the carrel or channel, and the offset. -/
inductive Location where
  | sram (wslot : Nat) (c : CarrelId) (off : Nat)
  | stackMem (c : CarrelId) (off : Nat)
  | archive (ch off : Nat)
  | host (port fn off : Nat)
  | device (off : Nat)
deriving DecidableEq, Repr

/-- The location a call number names within the limits of Table 10.1; none where it names none. [log DEDUCED 29] -/
def State.locate (s : State) (call : BitVec 48) : Option Location :=
  let v := call.toNat
  match callSpace call with
  | 0 =>
    let x := natBits v 30 10
    let y := natBits v 20 10
    if x < 544 ∧ y < 544 ∧ natBits v 16 4 = 0 ∧ natBits v 0 16 < 0xC000 then
      some (.sram (natBits v 40 4) (carrelAt x y) (natBits v 0 16))
    else none
  | 1 =>
    let x := natBits v 33 10
    let y := natBits v 23 10
    if natBits v 43 1 = 0 ∧ x < 544 ∧ y < 544 ∧ natBits v 0 23 < 0x500000 then
      some (.stackMem (carrelAt x y) (natBits v 0 23))
    else none
  | 2 =>
    let ch := natBits v 34 8
    if natBits v 42 2 = 0 ∧ s.channelPopulated ch then some (.archive ch (natBits v 0 34)) else none
  | 3 => some (.host (natBits v 41 3) (natBits v 32 9) (natBits v 0 32))
  | 4 => if natBits v 26 18 = 0 then some (.device (natBits v 0 26)) else none
  | _ => none

/-- The call number of a byte of a carrel's SRAM. -/
def sramCall (wslot : Nat) (c : CarrelId) (off : Nat) : BitVec 48 :=
  BitVec.ofNat 48 (wslot % 16 * 2 ^ 40 + c.x.val * 2 ^ 30 + c.y.val * 2 ^ 20 + off)
/-- The call number of a byte of a stacks cell. -/
def stacksCall (c : CarrelId) (off : Nat) : BitVec 48 :=
  BitVec.ofNat 48 (2 ^ 44 + c.x.val * 2 ^ 33 + c.y.val * 2 ^ 23 + off)

/-- The table key of the home of a location (R233). -/
def Location.home : Location → Nat
  | .sram _ c _ => c.key
  | .stackMem c _ => 2 ^ 20 + c.key
  | .archive ch _ => 2 ^ 21 + ch
  | .host p f _ => 2 ^ 22 + p * 512 + f
  | .device _ => 2 ^ 23
/-- The offset of a location. -/
def Location.offset : Location → Nat
  | .sram _ _ o => o | .stackMem _ o => o | .archive _ o => o | .host _ _ o => o | .device o => o
/-- The granule of a location in its home. -/
def Location.granule (l : Location) : Nat := l.offset / 64
/-- Reservation entries a home holds (R244). -/
def Location.capacity : Location → Nat
  | .sram .. => 4 | .stackMem .. => 8 | .archive .. => 64 | _ => 0

/-- Read `n` bytes of a location (R234). Host memory and device registers have homes of their own. -/
def State.readLoc (s : State) (l : Location) (n : Nat) : List Byte :=
  match l with
  | .sram _ c o => (s.carrel c).sram.read Memory.blank o n
  | .stackMem c o => (s.carrel c).stackMem.read Memory.blank o n
  | .archive ch o => s.archive.read Memory.blank (ch * 2 ^ 34 + o) n
  | _ => List.replicate n 0

/-- A store at a home clears every entry for its granule (R244). -/
def State.clearGranule (s : State) (h g : Nat) : State :=
  s.modHome h (fun t => { t with entries := t.entries.filter (fun e => e.granule != g) })

/-- Clear the entries of every granule of [off, off + n) at a home. [log DEDUCED 22] -/
def State.clearGranules (s : State) (h off n : Nat) : State :=
  (List.range (if n = 0 then 0 else (off + n - 1) / 64 - off / 64 + 1)).foldl
    (fun t i => t.clearGranule h (off / 64 + i)) s

/-- Write the bytes at a location and clear the reservations of its granule (R234, R244). The pieces of an access that
Table 10.4 lets be observed separately, 8 bytes of LD2 or ST2 toward the archive, 16 of a BMOVE element, are performed
together, in one of the orders it allows. [log DESIGN CHOICE 172] -/
def State.writeLoc (s : State) (l : Location) (bs : List Byte) : State :=
  match l with
  | .sram _ c o =>
    (s.modCarrel c (fun k => { k with sram := k.sram.write Memory.blank o bs })).clearGranules l.home o bs.length
  | .stackMem c o =>
    (s.modCarrel c (fun k => { k with stackMem := k.stackMem.write Memory.blank o bs })).clearGranules l.home o bs.length
  | .archive ch o =>
    ({ s with archive := s.archive.write Memory.blank (ch * 2 ^ 34 + o) bs } : State).clearGranules l.home o bs.length
  | _ => s

/-- Set a requester's entry, evicting the oldest where the table is full (R244). [log DEDUCED 30] -/
def Home.reserve (h : Home) (cap granule : Nat) (req : BitVec 32) (ticket : BitVec 16) : Home :=
  let es := h.entries.filter (fun e => e.requester != req)
  let es := if es.length < cap then es else es.drop 1
  { h with entries := es ++ [⟨granule, req, ticket⟩] }

/-- The head of a granule's queue. -/
def Home.head (h : Home) (granule : Nat) : Option QueueEntry := h.queue.find? (fun q => q.granule == granule)

/-- A failing requester joins the queue while a place is free; in it, the time of its last failure is noted (R246). -/
def Home.enqueue (h : Home) (granule : Nat) (req : BitVec 32) (now : Nat) : Home :=
  if h.queue.any (fun q => q.granule == granule && q.requester == req) then
    { h with queue := h.queue.map (fun q =>
        if q.granule == granule && q.requester == req then { q with failed := now } else q) }
  else if h.queue.length < 16 then { h with queue := h.queue ++ [⟨granule, req, now⟩] }
  else h

/-- Rows 3 and 4 of Table 10.5: whether the home performs a conditional store. -/
def Home.condOk (h : Home) (granule : Nat) (req : BitVec 32) (ticket : BitVec 16) : Bool :=
  h.entries.any (fun e => e.granule == granule && e.requester == req && e.ticket == ticket) &&
    (match h.head granule with
     | none => true
     | some q => q.requester == req)

/-- The requester leaves the granule's queue. -/
def Home.leave (h : Home) (granule : Nat) (req : BitVec 32) : Home :=
  { h with queue := h.queue.filter (fun q => !(q.granule == granule && q.requester == req)) }

/-- A conditional store at its home (Table 10.5 rows 3 to 5): the state after it, and whether it succeeded. -/
def State.condAt (s : State) (l : Location) (req : BitVec 32) (ticket : BitVec 16) (bs : List Byte) : State × Bool :=
  if (s.home l.home).condOk l.granule req ticket then
    ((s.writeLoc l bs).modHome l.home (fun h => h.leave l.granule req), true)
  else (s.modHome l.home (fun h => h.enqueue l.granule req s.ext), false)

/-! ### Destinations (Table 10.2) -/

/-- The wafer's own coordinates as DW and SW spell them. -/
def State.ownWafer (s : State) : BitVec 11 := s.lnk.coord

/-- The alcove and port of a location's home. -/
def State.homePort (s : State) (l : Location) : AlcoveId × Nat :=
  match l with
  | .sram _ c _ | .stackMem c _ => (c.alcove, c.dport)
  | .archive ch _ => (channelAlcove ch, 16)
  | .host p _ _ => (portAlcove (Fin.ofNat 8 p), 16)
  | .device _ => (alcoveAt (if s.cur.leafB then 68 else 67) 67, 16)

/-! ### Counters of memory errors (Table 18.3) -/

/-- Count what SECDED made of an SRAM access. -/
def State.countSram (s : State) (f : FolioId) (e : Ecc) : State :=
  match e with
  | .clean => s
  | .corrected n => s.modFolio f (fun x => { x with sramCe := satAdd x.sramCe n })
  | .uncorrectable =>
    let t := s.modFolio f (fun x => { x with sramUe := satInc x.sramUe })
    { t with int := { t.int with evSram := true } }
  | .retried _ => s
/-- Retries on the bond links of a folio (INT_BOND). -/
def State.countBond (s : State) (f : FolioId) (n : Nat) : State :=
  if n = 0 then s else s.modFolio f (fun x => { x with bondRetry := satAdd x.bondRetry n })
/-- Count what SECDED and the bond link's CRC made of a stacks access. -/
def State.countStacks (s : State) (f : FolioId) (e : Ecc) : State :=
  let s := s.countBond f e.retries
  match e.atBond with
  | .clean | .retried _ => s
  | .corrected n => s.modFolio f (fun x => { x with stacksCe := satAdd x.stacksCe n })
  | .uncorrectable =>
    let t := s.modFolio f (fun x => { x with stacksUe := satInc x.stacksUe })
    { t with int := { t.int with evStacks := true } }
/-- Count what SECDED and the link's own check made of an archive access. -/
def State.countArchive (s : State) (e : Ecc) : State :=
  match e with
  | .clean => s
  | .retried n => { s with int := { s.int with archRetry := satAdd s.int.archRetry n } }
  | .corrected n => { s with int := { s.int with archCe := satAdd s.int.archCe n } }
  | .uncorrectable => { s with int := { s.int with archUe := satInc s.int.archUe, evArchive := true } }
/-- Count an access at a home. -/
def State.countLoc (s : State) (l : Location) (e : Ecc) : State :=
  match l with
  | .sram _ c _ => s.countSram c.folio e
  | .stackMem c _ => s.countStacks c.folio e
  | .archive .. => s.countArchive e
  | _ => s
/-- What an access of a location met, seen from its home. -/
def Location.met (l : Location) (e : Ecc) : Ecc :=
  match l with
  | .stackMem .. => e.atBond
  | _ => e
/-- A step that goes on. -/
abbrev Out := Host.Outcome State Fault Refusal

end Sys2Proof.Machine
end

