-- ==== Sys2Proof/Machine/Grid.lean ====
section
/-! DEFINITION. Machine/Grid.lean: what rebinding binds under the errata in force: physical and logical columns, links,
router sites and lanes (R31, R33 to R35, R37 to R40). -/

namespace Sys2Proof.Machine

/-! ### Carrels (R31, R33, R34) -/

/-- The outward edge of a folio is its west edge in leaf A and its east edge in leaf B (R31). -/
def outwardWest (f : FolioId) : Bool := decide (folioX f < 4)
/-- The column of physical column `pc`, counted from the west edge of the folio: pc counts from the outward edge (R33). -/
def columnFromWest (f : FolioId) (pc : Nat) : Nat := if outwardWest f then pc else 71 - pc
/-- A position counted from the outward edge among `n` as a position counted from the west, and back (R34, R37). -/
def fromOutward (f : FolioId) (n i : Nat) : Nat := if outwardWest f then i else n - 1 - i

/-- Faulty physical columns of a row. -/
def faultyPcs (es : List ErrataEntry) (f : FolioId) (row : Nat) : List Nat :=
  ((es.filter (fun e => e.kind == 1 && e.folio == f && e.a.toNat == row)).map (fun e => e.b.toNat)).eraseDups
/-- The physical columns a row uses, from its outward edge: the first 68 that are not faulty (R34). -/
def usedPcs (es : List ErrataEntry) (f : FolioId) (row : Nat) : List Nat :=
  ((List.range 72).filter (fun pc => !(faultyPcs es f row).contains pc)).take 68
/-- The assignment position of a physical carrel, where it is used (R34). -/
def positionOf (es : List ErrataEntry) (f : FolioId) (row pc : Nat) : Option Nat :=
  let bad := faultyPcs es f row
  let i := pc - (bad.filter (fun q => decide (q < pc))).length
  if bad.contains pc || decide (68 ≤ i) then none else some i
/-- The local logical column of a physical carrel, where it is bound: lx = i in leaf A, 67 − i in leaf B (R34). -/
def logicalColumn (es : List ErrataEntry) (f : FolioId) (row pc : Nat) : Option Nat :=
  (positionOf es f row pc).map (fromOutward f 68)
/-- The physical column bound to a local logical carrel (R34). -/
def boundPc (es : List ErrataEntry) (f : FolioId) (lx ly : Nat) : Option Nat := (usedPcs es f ly)[fromOutward f 68 lx]?

/-- The physical carrel, row and column, that a logical carrel is bound to: none in a folio that is not present
(R33, R34, R40). -/
def State.physical (s : State) (c : CarrelId) : Option (Nat × Nat) :=
  if s.present c.folio then
    (boundPc s.errata c.folio (c.x.val % 68) (c.y.val % 68)).map (fun pc => (c.y.val % 68, pc))
  else none
/-- The cells of a logical carrel are reachable: it is bound to a physical one of a present folio (R40, R45). -/
def State.cellReachable (s : State) (c : CarrelId) : Bool := (s.physical c).isSome

/-! ### Links, sites and lanes (R35, R37, R39) -/

/-- A carrel-link entry joins two logical neighbours (R35). -/
def linkNeeded (es : List ErrataEntry) (e : ErrataEntry) : Bool :=
  let row := e.a.toNat
  let pc := e.b.toNat
  if e.c = 0 then
    match positionOf es e.folio row pc, positionOf es e.folio row (pc + e.d.toNat) with
    | some i, some j => i + 1 == j
    | _, _ => false
  else
    match positionOf es e.folio row pc, positionOf es e.folio (row + 1) (pc + e.d.toNat - 4) with
    | some i, some j => i == j && decide (4 ≤ pc + e.d.toNat ∧ row < 67)
    | _, _ => false

/-- Faulty router sites of a band of four rows. -/
def faultySites (es : List ErrataEntry) (f : FolioId) (band : Nat) : List Nat :=
  ((es.filter (fun e => e.kind == 3 && e.folio == f && e.a.toNat == band)).map (fun e => e.b.toNat)).eraseDups
/-- The sites a band takes, from the outward edge: 17 of 18, passing over at most one faulty site (R37). Site 0 stands
nearest the outward edge. [log DEDUCED 159] -/
def sitesTaken (es : List ErrataEntry) (f : FolioId) (band : Nat) : List Nat :=
  match (faultySites es f band).head? with
  | some q => if (faultySites es f band).length = 1 then (List.range 18).filter (· != q) else []
  | none => List.range 17
/-- The site that serves alcove column `a` of a band: position a in leaf A, 16 − a in leaf B (R37). -/
def siteOf (es : List ErrataEntry) (f : FolioId) (band a : Nat) : Option Nat :=
  (sitesTaken es f band)[fromOutward f 17 a]?
/-- An alcove has a router: its band has a site for it (R37). -/
def State.routed (s : State) (a : AlcoveId) : Bool :=
  !s.isBlocked a.folio && (siteOf s.errata a.folio (a.ay.val % 17) (a.ax.val % 17)).isSome

/-- Failed lanes of one bundle: folio, side, row or column, plane and direction. -/
def failedLanes (es : List ErrataEntry) (f : FolioId) (side index d : Nat) : List Nat :=
  ((es.filter (fun e => e.kind == 4 && e.folio == f && e.c.toNat == side && e.a.toNat == index && e.d.toNat == d)).map
    (fun e => e.b.toNat)).eraseDups
/-- The spare that stands for each failed lane of a bundle: failed lanes 0–63 in lane order, each with the next spare
64–67 that has not failed (R38, R39). Empty where the bundle has failed. -/
def laneMap (failed : List Nat) : List (Nat × Nat) :=
  if 5 ≤ failed.length then []
  else ((List.range 64).filter failed.contains).zip ([64, 65, 66, 67].filter (fun l => !failed.contains l))
/-- The physical lane that carries a lane of a bundle (R39). -/
def laneCarrier (failed : List Nat) (lane : Nat) : Nat :=
  match (laneMap failed).find? (fun q => q.1 == lane) with
  | some q => q.2
  | none => lane

/-- Whether a bundle of a plane on a boundary has failed (R39). -/
def planeFailed (es : List ErrataEntry) (f : FolioId) (side plane : Nat) : Bool :=
  let own := es.filter (fun e => e.kind == 4 && e.folio == f && e.c.toNat == side && e.d.toNat % 2 == plane)
  own.any (fun e => decide (5 ≤ (failedLanes own f side e.a.toNat e.d.toNat).length))
/-- Both copies of a boundary's spine link have failed. -/
def spineFailed (es : List ErrataEntry) (f : FolioId) (side : Nat) : Bool :=
  [0, 1].all (fun d => es.any (fun e => e.kind == 7 && e.folio == f && e.c.toNat == side && e.d.toNat == d))
/-- A boundary has a failed bundle. -/
def boundaryFailed (es : List ErrataEntry) (f : FolioId) (side : Nat) : Bool :=
  planeFailed es f side 0 || planeFailed es f side 1 || spineFailed es f side

/-- Spare lanes in use on a folio's east and south bundles (Table 5.6). -/
def sparesInUse (es : List ErrataEntry) (f : FolioId) : Nat :=
  let own := es.filter (fun e => e.kind == 4 && e.folio == f)
  let bundles := (own.map (fun e => (e.c.toNat, e.a.toNat, e.d.toNat))).eraseDups
  (bundles.map (fun b => (laneMap (failedLanes own f b.1 b.2.1 b.2.2)).length)).sum

/-! ### Crossing FIFOs (R71) -/

/-- The folio beyond side 0 N, 1 E, 2 S, 3 W of a folio. -/
def folioBeyond (f : FolioId) (side : Nat) : Option FolioId :=
  match side with
  | 0 => if 0 < folioY f then some (folioAt (folioX f) (folioY f - 1)) else none
  | 1 => if folioX f < 7 then some (folioAt (folioX f + 1) (folioY f)) else none
  | 2 => if folioY f < 7 then some (folioAt (folioX f) (folioY f + 1)) else none
  | _ => if 0 < folioX f then some (folioAt (folioX f - 1) (folioY f)) else none
/-- A side of a folio lies on the seam between column 3 and column 4. -/
def onSeam (f : FolioId) (side : Nat) : Bool := (folioX f == 3 && side == 1) || (folioX f == 4 && side == 3)
/-- The depth of the crossing FIFOs on a side: 4, and 8 at the seam; none at the edge of the wafer (R71). -/
def fifoDepth (f : FolioId) (side : Nat) : Nat :=
  match folioBeyond f side with
  | none => 0
  | some _ => if onSeam f side then 8 else 4
/-- The lead that a reset of the pointers gives: 2 entries, and 4 at the seam: half the depth (R71). -/
def fifoReset (f : FolioId) (side : Nat) : Nat := fifoDepth f side / 2
/-- The FIFO pointers of a folio are reset (R71). -/
def Folio.resetFifos (x : Folio) (f : FolioId) : Folio :=
  { x with fifoLead := Vector.ofFn (fun (d : Fin 4) => fifoReset f d.val) }

end Sys2Proof.Machine
end

