-- ==== Sys2Proof/Machine/Operands.lean ====
section
/-! DEFINITION. Machine/Operands.lean: every way an instruction of a carrel reads and writes its registers, its
immediates, local and shared addresses, sizes and pieces (chapter 7, R162 to R171). -/

namespace Sys2Proof.Machine

/-- g[i]: g0 reads zero (Table 6.3). -/
def CarrelRegs.getG (r : CarrelRegs) (i : BitVec 5) : Word := if i = 0 then 0 else r.g[i.toNat]
/-- g[i] ← v: a write to g0 is discarded (R164). -/
def CarrelRegs.setG (r : CarrelRegs) (i : BitVec 5) (v : Word) : CarrelRegs :=
  if i = 0 then r else { r with g := r.g.set i.toNat v }
/-- p[i]: p0 reads one; a field above 7 never gets here (R164). -/
def CarrelRegs.getP (r : CarrelRegs) (i : BitVec 5) : Bool :=
  if i = 0 then true else if h : i.toNat < 8 then r.p[i.toNat] else false
/-- p[i] ← v: a write to p0 is discarded. -/
def CarrelRegs.setP (r : CarrelRegs) (i : BitVec 5) (v : Bool) : CarrelRegs :=
  if i = 0 then r else if h : i.toNat < 8 then { r with p := r.p.set i.toNat v } else r
/-- a[i]. -/
def CarrelRegs.getA (r : CarrelRegs) (i : Nat) : BitVec 48 := if h : i < 16 then r.a[i] else 0
/-- a[i] ← v. -/
def CarrelRegs.setA (r : CarrelRegs) (i : Nat) (v : BitVec 48) : CarrelRegs :=
  if h : i < 16 then { r with a := r.a.set i v } else r
/-- The core moves to the next instruction. -/
def CarrelRegs.advance (r : CarrelRegs) : CarrelRegs := { r with pc := r.pc + 4 }

/-- A predicate field in range (R164). -/
def predOk (i : BitVec 5) : Bool := decide (i.toNat < 8)
/-- An accumulator field in range (R164). -/
def accOk (i : BitVec 5) : Bool := decide (i.toNat < 16)
/-- A pair field is even (R164). -/
def pairOk (i : BitVec 5) : Bool := decide (i.toNat % 2 = 0)
/-- A quad field is a multiple of 4 (R164). -/
def quadOk (i : BitVec 5) : Bool := decide (i.toNat % 4 = 0)

/-- The registers an access of a size uses from rt (Table 7.4). -/
def sizeRegs (rt : BitVec 5) (size : BitVec 3) : List (BitVec 5) :=
  match size.toNat with
  | 3 => [rt, rt + 1]
  | 6 => [rt, rt + 1, rt + 2, rt + 3]
  | _ => [rt]

/-- The register field of an access of a size is one R164 allows. -/
def sizeRegOk (rt : BitVec 5) (size : BitVec 3) : Bool :=
  match size.toNat with
  | 3 => pairOk rt
  | 6 => quadOk rt
  | _ => true

/-- The size codes of a load of 1 to 8 bytes (LDL also takes 0b110). -/
def loadSize (size : BitVec 3) : Bool := decide (size.toNat < 6)
/-- The size codes of a store of 1 to 8 bytes: the zero-extending ones are ILLEGAL (Table 7.4). -/
def storeSize (size : BitVec 3) : Bool := decide (size.toNat < 4)
/-- 0b110. -/
def quadSize (size : BitVec 3) : Bool := size == 6

/-- The bytes a store takes from its registers (Table 7.4). -/
def CarrelRegs.storeBytes (r : CarrelRegs) (rt : BitVec 5) (size : BitVec 3) : List Byte :=
  ((sizeRegs rt size).flatMap (fun i => leBytes 4 (r.getG i).toNat)).take (sizeBytes size)

/-- A loaded value in its registers (Table 7.4). -/
def CarrelRegs.load (r : CarrelRegs) (rt : BitVec 5) (size : BitVec 3) (bs : List Byte) : CarrelRegs :=
  match size.toNat with
  | 0 => r.setG rt ((BitVec.ofNat 8 (fieldAt bs 0 1)).signExtend 32)
  | 1 => r.setG rt ((BitVec.ofNat 16 (fieldAt bs 0 2)).signExtend 32)
  | 2 => r.setG rt (BitVec.ofNat 32 (fieldAt bs 0 4))
  | 3 => (r.setG rt (BitVec.ofNat 32 (fieldAt bs 0 4))).setG (rt + 1) (BitVec.ofNat 32 (fieldAt bs 4 4))
  | 4 => r.setG rt (BitVec.ofNat 32 (fieldAt bs 0 1))
  | 5 => r.setG rt (BitVec.ofNat 32 (fieldAt bs 0 2))
  | _ =>
    (((r.setG rt (BitVec.ofNat 32 (fieldAt bs 0 4))).setG (rt + 1) (BitVec.ofNat 32 (fieldAt bs 4 4))).setG
      (rt + 2) (BitVec.ofNat 32 (fieldAt bs 8 4))).setG (rt + 3) (BitVec.ofNat 32 (fieldAt bs 12 4))

/-- The address of LDL and STL: g[rb] + sign-extended offset, as 32 bits (R169). -/
def CarrelRegs.localAddr (r : CarrelRegs) (rb : BitVec 5) (off : BitVec 12) : Nat :=
  (r.getG rb + off.signExtend 32).toNat

/-- The upper half of the base pair's odd register, which must be zero (R171). -/
def CarrelRegs.callHigh (r : CarrelRegs) (rb : BitVec 5) : Nat := natBits (r.getG (rb + 1)).toNat 16 16
/-- The call number of a base pair and an offset, modulo 2^48 (R171). -/
def CarrelRegs.callNumber (r : CarrelRegs) (rb : BitVec 5) (off : BitVec 12) : BitVec 48 :=
  BitVec.ofNat 48 (natBits (r.getG (rb + 1)).toNat 0 16 * 2 ^ 32 + (r.getG rb).toNat) + off.signExtend 48

/-- The pieces of an access of `n` bytes at `a`: address, length, offset in the access. None where exact mode makes
a misaligned access MISALIGNED (R170). -/
def pieces (piecewise : Bool) (a n : Nat) : Option (List (Nat × Nat × Nat)) :=
  if a % n = 0 then some [(a, n, 0)]
  else if piecewise then
    let b := a - a % n + n
    some [(a, b - a, 0), (b, a + n - b, b - a)]
  else none

/-- The pieces of a shared access: call numbers wrap at 2^48. -/
def callPieces (piecewise : Bool) (call : BitVec 48) (n : Nat) : Option (List (BitVec 48 × Nat × Nat)) :=
  (pieces piecewise call.toNat n).map (fun ps => ps.map (fun q => (BitVec.ofNat 48 q.1, q.2.1, q.2.2)))

/-- A local access of `n` bytes lies below 0xC000 (R134). -/
def sramOk (a n : Nat) : Bool := decide (a + n ≤ 0xC000)

end Sys2Proof.Machine
end

