-- ==== Sys2Proof/Machine/Flags.lean ====
section
/-! DEFINITION. Machine/Flags.lean: the special registers st, rc and pg as words (Tables 6.7 to 6.9), fault codes
(Table 6.4), recall ranks (R150), and what raising a fault or an overrun does to a carrel. -/

namespace Sys2Proof.Machine

/-- pg as a word (Table 6.7). -/
def PgReg.word (p : PgReg) : Word :=
  BitVec.ofNat 32 (p.next.toNat + p.opcode.toNat * 2 ^ 24 + b2n p.valid * 2 ^ 31)
/-- st as a word (Table 6.8). -/
def StReg.word (t : StReg) : Word :=
  BitVec.ofNat 32 (t.fcode.toNat + b2n t.faulted * 2 ^ 8 + b2n t.piecewise * 2 ^ 9 + b2n t.pure_ * 2 ^ 10 +
    t.allow.toNat * 2 ^ 11 + t.reserve.toNat * 2 ^ 13 + b2n t.overrun * 2 ^ 15 + t.replays.toNat * 2 ^ 16)
/-- rc as a word (Table 6.9). -/
def RcReg.word (t : RcReg) : Word :=
  BitVec.ofNat 32 (t.cause.toNat + t.pendingCause.toNat * 2 ^ 4 + b2n t.pending * 2 ^ 8 + t.recalls.toNat * 2 ^ 16)

/-- Fault codes (Table 6.4). -/
def faultIllegal : Byte := 0x01
/-- MISALIGNED. -/
def faultMisaligned : Byte := 0x02
/-- SRAM_RANGE. -/
def faultSramRange : Byte := 0x03
/-- CALL_NUMBER. -/
def faultCallNumber : Byte := 0x04
/-- PURITY. -/
def faultPurity : Byte := 0x05
/-- PG_MISMATCH. -/
def faultPgMismatch : Byte := 0x06
/-- SRAM_UE. -/
def faultSramUe : Byte := 0x07
/-- STACKS_UE. -/
def faultStacksUe : Byte := 0x08
/-- TREE_DEPTH. -/
def faultTreeDepth : Byte := 0x09

/-- Recall causes (Table 6.5). -/
def recallPreempt : BitVec 4 := 1
/-- OVERDUE. -/
def recallOverdue : BitVec 4 := 2
/-- CANCEL. -/
def recallCancel : BitVec 4 := 3
/-- FAULT. -/
def recallFault : BitVec 4 := 4
/-- ABORT. -/
def recallAbort : BitVec 4 := 5
/-- BAY_RESET. -/
def recallBayReset : BitVec 4 := 6

/-- The rank of a recall cause (R150): BAY_RESET, FAULT, ABORT, CANCEL, OVERDUE, PREEMPT. -/
def recallRank (c : BitVec 4) : Nat :=
  match c.toNat with
  | 6 => 6 | 4 => 5 | 5 => 4 | 3 => 3 | 2 => 2 | 1 => 1 | _ => 0

/-- The higher-ranking of two causes (R205). -/
def recallMax (a b : BitVec 4) : BitVec 4 := if recallRank a < recallRank b then b else a

/-- A fault stops the carrel at once; it is coded in st and reported (R142). -/
def Carrel.raise (k : Carrel) (code : Byte) : Carrel :=
  { k with regs := { k.regs with st := { k.regs.st with fcode := code, faulted := true } },
           run := .faulted, repFault := true, long := none }

/-- An overrun: st.OVERRUN, issue stops, the report is made (R155, R175). -/
def Carrel.overran (k : Carrel) : Carrel :=
  { k with regs := { k.regs with st := { k.regs.st with overrun := true } }, run := .overrun, repOverrun := true }

/-- A reply is pending on g[i] (R173); nothing is ever pending on g0, whose writes are discarded. [log DEDUCED 15] -/
def Carrel.regPending (k : Carrel) (i : BitVec 5) : Bool :=
  i != 0 && k.loads.any (fun l => (if l.isCond then [l.reg] else sizeRegs l.reg l.size).contains i)

/-- Loads, reserved loads and conditional stores awaiting replies, by pieces (R173). [log DEDUCED 15] -/
def Carrel.loadCount (k : Carrel) : Nat := (k.loads.map (fun l => l.pieces.length)).sum
/-- A load with an acquire mark has not been performed (R238). -/
def Carrel.acquiring (k : Carrel) : Bool := k.loads.any (fun l => l.acquire)
/-- An access of this carrel to a granule of its own SRAM's bytes [a, a + n) is outstanding (R236). -/
def Carrel.ownGranuleBusy (k : Carrel) (c : CarrelId) (a n : Nat) : Bool :=
  let base := (sramCall 0 c 0).toNat / 64
  let hit (g : Nat) : Bool := decide (base + a / 64 ≤ g ∧ g ≤ base + (a + n - 1) / 64)
  k.loads.any (fun l => l.pieces.any (fun q => hit q.granule)) || k.stores.any (fun t => hit t.granule)

/-- A unit's instruction waits, as a local access does, for an acquire mark before it and for the carrel's own shared
accesses to its SRAM (R236, R238). [log DEDUCED 173] -/
def Carrel.unitHeld (k : Carrel) (c : CarrelId) : Bool := k.acquiring || k.ownGranuleBusy c 0 0xC000

/-- The beat count of the pass (R175, R192). -/
def Carrel.beat (k : Carrel) : Nat := k.regs.switch.w / 16

end Sys2Proof.Machine
end

