-- ==== Sys2Proof/Machine/Issue.lean ====
section
/-! DEFINITION. Machine/Issue.lean: how the scalar core issues an instruction: whether it can, the order of the
faults of R188 that come before an instruction's own, and what a result does to the state (R142, R173). -/

namespace Sys2Proof.Machine

/-- What a direct access does to the reservation table of the carrel's own stacks cell (R244, R246). -/
inductive HomeOp where
  | reserve (granule : Nat)
  | leave (granule : Nat)
  | enqueue (granule : Nat)
deriving DecidableEq, Repr

/-- What an instruction leaves beside the carrel: packets sent, and the bytes of its own SRAM and stacks cell that it
stored to (offset and length), whose reservations are cleared (R244). -/
structure CoreEffect where
  sent   : List Packet := []
  sram   : List (Nat × Nat) := []
  stackMem : List (Nat × Nat) := []
  home   : Option HomeOp := none
  /-- Corrected words of SRAM and of the stacks cell (R416). -/
  sramCe : Nat := 0
  stacksCe : Nat := 0
  /-- Bond-link transfers repeated (R415). -/
  bond   : Nat := 0
  replays : Nat := 0
  /-- Free values drawn from the entropy source (R186). -/
  draws  : Nat := 0
deriving DecidableEq, Repr

/-- How an issue ends. -/
inductive CoreResult where
  /-- It waits, and has not issued (R173). -/
  | wait
  /-- It waits for its turn at the carrel's stacks port, which notes it (R139). -/
  | held (k : Carrel)
  /-- It faults; elements before the faulting one keep their effects (R142). -/
  | fault (k : Carrel) (code : Byte) (eff : CoreEffect)
  /-- It goes on. -/
  | next (k : Carrel) (eff : CoreEffect)
deriving DecidableEq, Repr

/-- The core of a carrel may issue: clocks run, a pass runs there, and no long instruction of another kind stands
stopped at a boundary (R133, R142, R144, R186). [log DESIGN CHOICE 1] -/
def State.coreReady (s : State) (c : CarrelId) : Bool := s.fabricRuns && (s.carrel c).run == .running

/-- The faults that any instruction meets before its own, and the wait of R173: PG_MISMATCH, then ILLEGAL (R188).
[log DEDUCED 14] -/
def Carrel.issue (k : Carrel) (op : BitVec 6) (legal : Bool) (uses : List (BitVec 5)) (body : CoreResult) :
    CoreResult :=
  if k.regs.pg.valid && k.regs.pg.opcode != op then .fault k faultPgMismatch {}
  else if !legal then .fault k faultIllegal {}
  else if (match k.long with
           | none => false
           | some l => l.1 != op) || uses.any k.regPending then .wait
  else body

/-- The instruction completes: its registers change and the core moves on. -/
def Carrel.retire (k : Carrel) (f : CarrelRegs → CarrelRegs) : CoreResult :=
  .next { k with regs := (f k.regs).advance } {}

/-- PURITY on issue of an instruction of classes 1 to 3 of R23 (R187). [log DEDUCED 14] -/
def Carrel.pureGate (k : Carrel) (body : CoreResult) : CoreResult :=
  if k.regs.st.pure_ then .fault k faultPurity {} else body

/-- A fault raised is counted where its unit's counter stands (R416). -/
def State.countFault (s : State) (f : FolioId) (code : Byte) : State :=
  if code = faultSramUe then s.countSram f .uncorrectable
  else if code = faultStacksUe then s.countStacks f .uncorrectable
  else s

/-- The effects of an issue outside its carrel: packets, cleared reservations, replays (R244, R430).
[log DEDUCED 14] -/
def State.coreEffect (s : State) (c : CarrelId) (e : CoreEffect) : State :=
  let s := e.sram.foldl (fun t p => t.clearGranules c.key p.1 p.2) s
  let s := e.stackMem.foldl (fun t p => t.clearGranules (2 ^ 20 + c.key) p.1 p.2) s
  let own : Location := .stackMem c 0
  let req := c.requester s.ownWafer
  let s := match e.home with
    | none => s
    | some (.reserve g) =>
      s.modHome own.home (fun h => h.reserve own.capacity g req (s.carrel c).ticket)
    | some (.leave g) => s.modHome own.home (fun h => h.leave g req)
    | some (.enqueue g) => s.modHome own.home (fun h => h.enqueue g req s.ext)
  let s := if e.sramCe = 0 then s else s.countSram c.folio (.corrected e.sramCe)
  let s := if e.stacksCe = 0 then s else s.countStacks c.folio (.corrected e.stacksCe)
  let s := s.countBond c.folio e.bond
  let s := if e.draws = 0 then s else { s with free := s.free + e.draws }
  let s := if e.replays = 0 then s
    else s.modFolio c.folio (fun x => { x with replays := satAdd x.replays e.replays })
  if e.sent.isEmpty then s else s.inject c.alcove (rowPort c.dport) e.sent

/-- The state after an issue. -/
def State.applyCore (s : State) (c : CarrelId) (r : CoreResult) : State :=
  match r with
  | .wait => s
  | .held k => s.setCarrel c k
  | .fault k code e => ((s.coreEffect c e).countFault c.folio code).setCarrel c (k.raise code)
  | .next k e => (s.coreEffect c e).setCarrel c k

/-- The instruction has left the core: the next one is fetched; a long instruction stopped at a boundary stands. -/
def CoreResult.issued : CoreResult → CoreResult
  | .next k e => .next { k with ir := if k.long.isSome then k.ir else none } e
  | r => r

/-- What the core of a carrel does beside an instruction's own effect: a fetch. -/
def State.core (s : State) (c : CarrelId) (body : Carrel → CoreResult) : Out :=
  if s.coreReady c then .next (s.applyCore c (body (s.carrel c))) else .next s

/-! ### Instruction words (R162, R163) -/

/-- Format A: op, rd, rs1, rs2, fn (Table 7.1). -/
def wordA (op : BitVec 6) (rd rs1 rs2 : BitVec 5) (fn : BitVec 11) : Word := op ++ rd ++ rs1 ++ rs2 ++ fn
/-- Format A of the units: rs3 and mode in fn. -/
def wordX (op : BitVec 6) (rd rs1 rs2 rs3 : BitVec 5) (mode : BitVec 6) : Word := op ++ rd ++ rs1 ++ rs2 ++ rs3 ++ mode
/-- Formats I and B: op, two register fields, a 16-bit immediate or offset. -/
def wordI (op : BitVec 6) (rd rs1 : BitVec 5) (imm : BitVec 16) : Word := op ++ rd ++ rs1 ++ imm
/-- Format M: op, rt, rb, mark, size, byte offset. -/
def wordM (op : BitVec 6) (rt rb : BitVec 5) (mark : Bool) (size : BitVec 3) (off : BitVec 12) : Word :=
  op ++ rt ++ rb ++ BitVec.ofBool mark ++ size ++ off
/-- Format U: op, rd, a 21-bit immediate. -/
def wordU (op : BitVec 6) (rd : BitVec 5) (imm : BitVec 21) : Word := op ++ rd ++ imm

/-- One instruction of a carrel: it issues when its word, op, fn and every operand field, is the one fetched at pc
(R162, R163, R165). -/
def State.instr (s : State) (c : CarrelId) (w : Word) (body : Carrel → CoreResult) : Out :=
  if s.coreReady c && (s.carrel c).ir == some w then .next (s.applyCore c (body (s.carrel c)).issued) else .next s

/-! ### Shapes shared by the register instructions -/

/-- g[rd] ← f(g[rs1], g[rs2]) (R166). -/
def State.alu (s : State) (c : CarrelId) (op : BitVec 6) (fn : BitVec 11) (legal : Bool) (rd rs1 rs2 : BitVec 5)
    (f : Word → Word → Word) : Out :=
  s.instr c (wordA op rd rs1 rs2 fn) (fun k => k.issue op legal [rd, rs1, rs2]
    (k.retire (fun r => r.setG rd (f (r.getG rs1) (r.getG rs2)))))

/-- g[rd] ← f(g[rs1], imm16) (R166). -/
def State.alui (s : State) (c : CarrelId) (op : BitVec 6) (legal : Bool) (rd rs1 : BitVec 5) (imm : BitVec 16)
    (f : Word → BitVec 16 → Word) : Out :=
  s.instr c (wordI op rd rs1 imm) (fun k => k.issue op legal [rd, rs1] (k.retire (fun r => r.setG rd (f (r.getG rs1) imm))))

/-- p[pd] ← f(g[rs1], g[rs2]) (R166). -/
def State.compare (s : State) (c : CarrelId) (fn : BitVec 11) (pd rs1 rs2 : BitVec 5) (f : Word → Word → Bool) : Out :=
  s.instr c (wordA 0x02 pd rs1 rs2 fn) (fun k => k.issue 0x02 (predOk pd) [rs1, rs2]
    (k.retire (fun r => r.setP pd (f (r.getG rs1) (r.getG rs2)))))

/-- p[pd] ← f(p[ps1], p[ps2]) (R166). -/
def State.predicate (s : State) (c : CarrelId) (fn : BitVec 11) (legal : Bool) (pd ps1 ps2 : BitVec 5)
    (f : Bool → Bool → Bool) : Out :=
  s.instr c (wordA 0x02 pd ps1 ps2 fn) (fun k => k.issue 0x02 (legal && predOk pd && predOk ps1 && predOk ps2) []
    (k.retire (fun r => r.setP pd (f (r.getP ps1) (r.getP ps2)))))

/-- A taken branch moves pc by 4 × offset16; another moves it to the next instruction (R167). -/
def CarrelRegs.jump (r : CarrelRegs) (taken : Bool) (off : BitVec 16) : CarrelRegs :=
  if taken then { r with pc := r.pc + 4 * off.signExtend 32 } else r.advance

/-- A branch: pc ← pc + 4 × offset16 when taken, the next instruction otherwise (R167). -/
def State.branch (s : State) (c : CarrelId) (op : BitVec 6) (r1 r2 : BitVec 5) (legal : Bool)
    (uses : List (BitVec 5)) (taken : CarrelRegs → Bool) (off : BitVec 16) : Out :=
  s.instr c (wordI op r1 r2 off) (fun k => k.issue op legal uses
    (.next { k with regs := k.regs.jump (taken k.regs) off } {}))

/-- A read of a special register, of time or of entropy: impure (R187). -/
def State.sysRead (s : State) (c : CarrelId) (w : Word) (legal : Bool) (op : BitVec 6) (rd : BitVec 5)
    (f : Carrel → Word) : Out :=
  s.instr c w (fun k => k.issue op legal [rd] (k.pureGate (k.retire (fun r => r.setG rd (f k)))))

end Sys2Proof.Machine
end

