-- ==== Sys2Proof/Machine/BayView.lean ====
section
/-! DEFINITION. Machine/BayView.lean: what the codex in force says of a bay (chapter 11), its carrels and volumes,
and the windows of a pass (R278, R279). -/

namespace Sys2Proof.Machine

/-- The BAYS entry of a bay of the codex in force. -/
def State.bayEntry (s : State) (b : BayId) : Option BayEntry :=
  match s.cdx.codex with
  | none => none
  | some c => c.bays.find? (fun e => e.bay == b)

/-- The carrels of a rectangle, in row-major order from the north-west. -/
def rectCarrels (x0 y0 w h : Nat) : List CarrelId :=
  (List.range h).flatMap (fun j => (List.range w).map (fun i => carrelAt (x0 + i) (y0 + j)))
/-- Whether a rectangle holds (x, y). -/
def inRect (x y x0 y0 w h : Nat) : Bool := inSpan x x0 w && inSpan y y0 h

/-- The carrels of a bay, row-major (R271). -/
def BayEntry.carrels (e : BayEntry) : List CarrelId := rectCarrels e.x0 e.y0 e.w e.h
/-- Whether a carrel belongs to a bay. -/
def BayEntry.has (e : BayEntry) (c : CarrelId) : Bool := inRect c.x.val c.y.val e.x0 e.y0 e.w e.h
/-- The place of a carrel in the row-major order of its bay. -/
def BayEntry.place (e : BayEntry) (c : CarrelId) : Nat := (c.y.val - e.y0) * e.w + (c.x.val - e.x0)
/-- The payload carrel (R208). -/
def BayEntry.payload (e : BayEntry) : CarrelId := carrelAt (e.x0 + e.payDx) (e.y0 + e.payDy)
/-- The egress carrel (R208). -/
def BayEntry.egress (e : BayEntry) : CarrelId := carrelAt (e.x0 + e.egrDx) (e.y0 + e.egrDy)
/-- The folios a bay touches, lowest number first. -/
def BayEntry.folios (e : BayEntry) : List FolioId :=
  allFolios.filter (fun f =>
    let fx := folioX f
    let fy := folioY f
    decide (e.x0 < fx * 68 + 68 ∧ fx * 68 < e.x0 + e.w ∧ e.y0 < fy * 68 + 68 ∧ fy * 68 < e.y0 + e.h))
/-- The carrels of a bay; none where the bay does not exist. -/
def State.bayCarrels (s : State) (b : BayId) : List CarrelId :=
  match s.bayEntry b with
  | none => []
  | some e => e.carrels
/-- The folios of a bay. -/
def State.bayFolios (s : State) (b : BayId) : List FolioId :=
  match s.bayEntry b with
  | none => []
  | some e => e.folios
/-- Change every carrel of a bay. -/
def State.mapBay (s : State) (b : BayId) (g : CarrelId → Carrel → Carrel) : State :=
  (s.bayCarrels b).foldl (fun t c => t.modCarrel c (g c)) s

/-- The volume of a VSLOT of a bay. -/
def Bay.volume (b : Bay) (slot : Byte) : Option Volume := Tbl.get none b.vslots slot.toNat
/-- The volume of the pass that a bay runs. -/
def Bay.running (b : Bay) : Option Volume :=
  match b.pass with
  | none => none
  | some p => b.volume p.req.vslot
/-- A volume's part: SRAM image and stacks data (R271). -/
def Volume.partLen (v : Volume) : Nat := 49152 + v.stacksLen
/-- A volume region: the part size rounded up to a multiple of 64 KiB (R273). -/
def Volume.regionLen (v : Volume) : Nat := (v.partLen + 65535) / 65536 * 65536

/-- The wafer that WSLOT of a bay's wafer map names; entry 0 is the wafer itself (R229). -/
def State.wslotWafer (s : State) (b : BayId) (wslot : Nat) : Option (BitVec 11) :=
  if wslot = 0 then some s.ownWafer
  else match s.cdx.codex with
    | none => none
    | some c => (c.wafermap.find? (fun e => e.bay == b && e.wslot == wslot)).map (fun e => e.dw)

/-! ### The stacks port (R139) -/

/-- A remote request waits at a carrel's stacks port. -/
def State.remoteWaits (s : State) (c : CarrelId) : Bool :=
  s.net.any (fun t => t.dest == Wire.endpoint && !t.pkt.reply && decide (t.pkt.dport.toNat < 16) &&
    t.pkt.dstCarrel == c && callSpace t.pkt.call == 1)
/-- The port has served the carrel's own request: a remote one goes next where both wait. -/
def CoreResult.tookPort : CoreResult → CoreResult
  | .next k e => .next { k with cellTurn := false, cellWait := false } e
  | .fault k code e => .fault { k with cellTurn := false, cellWait := false } code e
  | r => r
/-- A request of the carrel's own at its stacks port: it waits where a remote one waits too and has the turn. A BMOVE takes
one turn with all its granules. [log DEDUCED 180] -/
def State.ownTurn (s : State) (c : CarrelId) (k : Carrel) (body : CoreResult) : CoreResult :=
  if !k.cellTurn && s.remoteWaits c then .held { k with cellWait := true } else body.tookPort

/-- How an access meets the windows of a pass. -/
inductive WindowHit where
  | outside
  | implicit
  | entry
deriving DecidableEq, Repr

/-- Whether a WINDOWS entry covers `n` bytes of a location (Table 12.4). -/
def WindowEntry.covers (e : WindowEntry) (l : Location) (n : Nat) (write : Bool) : Bool :=
  (if write then e.write else e.read) &&
    decide (e.base ≤ l.offset ∧ l.offset + n ≤ e.base + e.len) &&
    (match l with
     | .sram ws c _ => e.space == 0 && e.wslot == ws && inRect c.x.val c.y.val e.x0 e.y0 e.w e.h
     | .stackMem c _ => e.space == 1 && inRect c.x.val c.y.val e.x0 e.y0 e.w e.h
     | .archive ch _ => e.space == 2 && inSpan ch e.x0 e.w
     | _ => false)

/-- The check of R232: the implicit windows of the pass, then the bay's entries (R278, R279). Spaces 3 and 4 are
never reached by a carrel (R231), nor is a WSLOT the codex leaves unassigned (R229). -/
def State.window (s : State) (c : CarrelId) (call : BitVec 48) (n : Nat) (write : Bool) : WindowHit :=
  match (s.carrel c).bay, s.locate call with
  | some b, some l =>
    match s.bayEntry b with
    | none => .outside
    | some e =>
      let assigned := match l with
        | .sram ws _ _ => (s.wslotWafer b ws).isSome
        | _ => true
      let implicit := match l with
        | .sram ws c' _ => ws == 0 && e.has c'
        | .stackMem c' o =>
          !write && e.has c' &&
            (match (s.bay b).running with
             | none => false
             | some v => decide (v.region ≤ o ∧ o + n ≤ v.region + v.regionLen))
        | _ => false
      if !assigned then .outside
      else if implicit then .implicit
      else match s.cdx.codex with
        | none => .outside
        | some x => if x.windows.any (fun w => w.bay == b && w.covers l n write) then .entry else .outside
  | _, _ => .outside

end Sys2Proof.Machine
end

