-- ==== Sys2Proof/Machine/Crossing.lean ====
section
/-! DEFINITION. Machine/Crossing.lean: the crossings of a spanning bay: the edge carrels a peer link's channels reach,
active channels, and the check of K (R370 to R373). -/

namespace Sys2Proof.Machine

/-- The fabric frequency of a code, in MHz (Table 3.2). -/
def freqMHz (code : BitVec 2) : Nat :=
  match code.toNat with
  | 0 => 1100 | 1 => 900 | 2 => 700 | _ => 500

/-- A link is in service: routed or mesochronous (Table 16.5). -/
def Link.inService (l : Link) : Bool := l.state == .routed || l.state == .mesochronous

/-- The edge carrel that a channel of a link connects to, and its outward switch port, 0 N, 1 E, 2 S, 3 W (R370). -/
def channelCarrel (l : LinkId) (ch : Nat) : CarrelId × Nat :=
  let n := if linkDir l < 4 then 2 else 4
  let p := 68 / n * (linkNum l % n) + 68 / n / 4 * ch + 2
  let f := linkFolio l
  match linkDir l with
  | 0 => (carrelAt 0 (folioY f * 68 + p), 3)
  | 1 => (carrelAt 543 (folioY f * 68 + p), 1)
  | 2 | 4 => (carrelAt (folioX f * 68 + p) 0, 0)
  | _ => (carrelAt (folioX f * 68 + p) 543, 2)

/-- A timetable entry routes a flit to or from a switch port. -/
def entryUses (e : DWord) (port : Nat) : Bool :=
  let v := e.toNat
  let outs := [0, 1, 2, 3]
  match natBits v 0 3 with
  | 0 =>
    natBits v (3 + 3 * port) 3 != 0 || outs.any (fun o => natBits v (3 + 3 * o) 3 == port + 1) ||
      natBits v 15 3 == port + 1
  | 4 => natBits v (3 + 3 * port) 3 != 0 || outs.any (fun o => natBits v (3 + 3 * o) 3 == port + 1)
  | _ => false

/-- A channel is active: a timetable of the bay, in a set, routes a flit to or from its port (R370). -/
def Codex.channelActive (x : Codex) (b : BayId) (set : Nat) (l : LinkId) (ch : Nat) : Bool :=
  match x.bays.find? (fun e => e.bay == b) with
  | none => false
  | some e =>
    let (c, port) := channelCarrel l ch
    x.programs.any (fun p =>
      p.bay == b && p.set == set && inRect c.x.val c.y.val (e.x0 + p.dx) (e.y0 + p.dy) p.w p.h &&
        p.table.any (fun d => entryUses d port))
/-- The active channels of a link for a bay, as a mask. -/
def Codex.activeMask (x : Codex) (b : BayId) (set : Nat) (l : LinkId) : BitVec 4 :=
  (List.range 4).foldl (fun m ch => setBit m ch (x.channelActive b set l ch)) 0

/-- The check of a crossing's link and K at a frequency (R373). -/
def State.crossingOk (s : State) (x : Codex) (e : CrossingEntry) (code : BitVec 2) : Bool :=
  let l := linkOf e.dir e.link
  let k := s.link l
  let lat := k.latency.toNat
  let f := freqMHz code
  let up (v : Nat) : Nat := (v * f + 999999) / 1000000
  let active := (maskList (x.activeMask e.bay e.set l)).length
  k.state == .mesochronous && k.passed4 &&
    (match k.partner with
     | none => false
     | some p => p.2 == code) &&
    decide (up lat + up (2 * lat + 12800) ≤ 16 * e.k) && decide (16 * e.k * active ≤ 8192)

/-- The crossings of a bay's set in force (R382). -/
def State.crossingsOf (s : State) (b : BayId) : List CrossingEntry :=
  match s.cdx.codex with
  | none => []
  | some x => x.crossings.filter (fun e => e.bay == b && e.set == (s.bay b).altSet)

/-- Every crossing of a bay's set in force passes R373 at the frequency in force (R375, R381). -/
def State.crossingsOk (s : State) (b : BayId) : Bool :=
  match s.cdx.codex with
  | none => true
  | some x => (s.crossingsOf b).all (fun e => s.crossingOk x e s.clk.freq)

/-- The crossing of the codex in force that uses a link, of the sets in force. -/
def State.linkCrossing (s : State) (l : LinkId) : Option CrossingEntry :=
  match s.cdx.codex with
  | none => none
  | some x =>
    x.crossings.find? (fun e => linkOf e.dir e.link == l && decide (e.dir < 6) && e.set == (s.bay e.bay).altSet)

/-- A bay of the codex in force spans wafers. -/
def State.spans (s : State) (b : BayId) : Bool :=
  match s.bayEntry b with
  | none => false
  | some e => e.spans
/-- A bay has a WAFERMAP entry. -/
def State.hasWafermap (s : State) (b : BayId) : Bool :=
  match s.cdx.codex with
  | none => false
  | some x => x.wafermap.any (fun e => e.bay == b)

end Sys2Proof.Machine
end

