-- ==== Sys2Proof/Machine/HostOps.lean ====
section
/-! DEFINITION. Machine/HostOps.lean: who is present (R340), posted writes into host windows (R320), the notice
rings and shelves (R337, R338) and MSI-X (R339). -/

namespace Sys2Proof.Machine

/-- The host port of a reader (R317). -/
def readerPort (r : ReaderId) : PortId := Fin.ofNat 8 (r.toNat / 512)
/-- The index of a reader's function on its port; 0 is the PF (R317). -/
def readerIndex (r : ReaderId) : Nat := r.toNat % 512
/-- The owner function: the PF of the owner port (R317). -/
def State.ownerFn (s : State) : ReaderId := BitVec.ofNat 12 (s.portRegs.owner.val * 512)
/-- Reader slots that are not at their reset values. -/
def State.readerIds (s : State) : List ReaderId := s.readers.map (fun e => BitVec.ofNat 12 e.1)
/-- The reader slots of a port that are not at their reset values. -/
def State.portReaders (s : State) (p : PortId) : List ReaderId := s.readerIds.filter (fun r => readerPort r == p)

/-- The function exists and is enabled: a PF, or a VF that VF Enable and NumVFs cover (R340). -/
def State.fnExists (s : State) (r : ReaderId) : Bool :=
  readerIndex r == 0 ||
    ((s.port (readerPort r)).vfEnable && decide (readerIndex r ≤ (s.port (readerPort r)).numVfs.toNat))

/-- The function's link is up, it exists, may master the bus and is in D0 (R340 without VER_EN). -/
def State.fnReaches (s : State) (r : ReaderId) : Bool :=
  (s.port (readerPort r)).linkUp && s.portInService (readerPort r) && s.fnExists r && (s.reader r).busMaster && !(s.reader r).d3hot

/-- The reader is present (R340). -/
def State.isPresent (s : State) (r : ReaderId) : Bool := s.fnReaches r && (s.reader r).verEn

/-- A posted write to an absolute host address. [log DEDUCED 152] -/
def State.post (s : State) (kind : PostKind) (fn : ReaderId) (addr : Nat) (bs : List Byte) : State :=
  { s with posted := s.posted ++ [⟨kind, fn, addr, bs⟩] }
/-- A posted write into a function's host window (R320). -/
def State.postWindow (s : State) (kind : PostKind) (fn : ReaderId) (off : Nat) (bs : List Byte) : State :=
  s.post kind fn ((s.reader fn).window.toNat + off) bs
/-- Writes of at most 512 bytes in increasing address order (R334); `n` bounds their number. [log DEDUCED 152] -/
def State.postChunks (s : State) (kind : PostKind) (fn : ReaderId) (off : Nat) (bs : List Byte) : Nat → State
  | 0 => s
  | n + 1 =>
    if bs.isEmpty then s
    else (s.postWindow kind fn off (bs.take 512)).postChunks kind fn (off + 512) (bs.drop 512) n

/-! ### Rings -/

/-- Entries of a ring (R321). -/
def Ring.entries (g : Ring) : Nat := 2 ^ g.size.toNat
/-- Records written and not yet freed (R323). -/
def Ring.unfreed (g : Ring) : Nat := (g.tail.toNat + g.entries - g.head.toNat) % g.entries
/-- Entries that can still be written: at most 2^s − 1 are unfreed (R323). -/
def Ring.room (g : Ring) : Nat := g.entries - 1 - g.unfreed
/-- The ring after one record was written at its tail: the tail moves on, and PHASE toggles at the wrap (R323). -/
def Ring.push (g : Ring) : Ring :=
  if g.tail.toNat + 1 < g.entries then { g with tail := g.tail + 1 } else { g with tail := 0, phase := !g.phase }
/-- The ring at enabling: head and tail 0, and the first pass has PHASE 1 (R321, R323). -/
def Ring.enabled (g : Ring) : Ring := { g with head := 0, tail := 0, phase := true }

/-! ### MSI-X (R339) -/

/-- Change a vector of a reader. -/
def State.modVector (s : State) (r : ReaderId) (v : Fin 4) (g : Vector4 → Vector4) : State :=
  s.modReader r (fun x => { x with vectors := x.vectors.set v (g x.vectors[v]) })

/-- The message itself. -/
def State.sendMsix (s : State) (r : ReaderId) (v : Fin 4) : State :=
  let x := (s.reader r).vectors[v]
  (s.post .msix r x.addr.toNat (leBytes 4 x.data.toNat)).modVector r v
    (fun x => { x with last := some s.ext, owed := false, pba := false })

/-- HOLDOFF ticks have passed since the vector's last message. -/
def State.msixDue (s : State) (r : ReaderId) (v : Fin 4) : Bool :=
  match ((s.reader r).vectors[v]).last with
  | none => true
  | some t => decide (t + (s.reader r).holdoff.toNat ≤ s.ext)

/-- A record was written: its vector's message is sent, is owed until HOLDOFF has passed, or sets the PBA bit. -/
def State.msix (s : State) (r : ReaderId) (v : Fin 4) : State :=
  let x := s.reader r
  if !x.msixEn then s
  else if x.msixMask || x.vectors[v].masked then s.modVector r v (fun y => { y with pba := true })
  else if s.msixDue r v then s.sendMsix r v
  else s.modVector r v (fun y => { y with owed := true })

/-! ### Notices (R337, R338) -/

/-- The 32 bytes of a notice (Table 14.9). -/
def Notice.bytes (n : Notice) (phase shelved : Bool) : List Byte :=
  n.code :: BitVec.ofNat 8 (b2n phase + 2 * b2n shelved) :: List.replicate 6 0 ++ leBytes 8 n.tick.toNat ++
    bytesAt n.arg 0 16

/-- A reader's notice ring can take a notice. -/
def State.noticeRoom (s : State) (r : ReaderId) : Bool :=
  s.isPresent r && (s.reader r).notEn && decide (0 < (s.reader r).notRing.room)

/-- Write a notice at the ring's tail, and its vector's message. -/
def State.writeNotice (s : State) (r : ReaderId) (n : Notice) (shelved : Bool) : State :=
  let g := (s.reader r).notRing
  let t := s.postWindow .notice r (g.base.toNat + 32 * g.tail.toNat) (n.bytes g.phase shelved)
  (t.modReader r (fun x => { x with notRing := x.notRing.push })).msix r 2

/-- Put a notice at the tail of the shelf; a full shelf drops its oldest notice (R338). -/
def Reader.shelve (x : Reader) (n : Notice) : Reader :=
  if x.shelf.length < 256 then { x with shelf := x.shelf ++ [n] }
  else { x with shelf := x.shelf.drop 1 ++ [n], overflow := x.overflow + 1, shelfDrops := satInc x.shelfDrops }

/-- Raise a notice for a recipient (R338). -/
def State.notice (s : State) (r : ReaderId) (code : Nat) (arg : List Byte) : State :=
  let n : Notice := ⟨BitVec.ofNat 8 code, s.clk.tick, bytesAt arg 0 16⟩
  if s.noticeRoom r && (s.reader r).shelf.isEmpty then s.writeNotice r n false
  else s.modReader r (fun x => x.shelve n)

/-- Raise a notice for the owner. -/
def State.ownerNotice (s : State) (code : Nat) (arg : List Byte) : State := s.notice s.ownerFn code arg

/-- Drain a shelf in order, SHELF_OVERFLOW first where notices were dropped; `n` bounds the notices.
[log DEDUCED 54] -/
def State.drainShelfN (s : State) (r : ReaderId) : Nat → State
  | 0 => s
  | n + 1 =>
    let x := s.reader r
    if !s.noticeRoom r then s
    else match x.shelf with
      | [] => s
      | q :: rest =>
        if x.overflow ≠ 0 then
          ((s.writeNotice r ⟨0x0F, s.clk.tick, leBytes 4 x.overflow.toNat⟩ false).modReader r
            (fun y => { y with overflow := 0 })).drainShelfN r n
        else ((s.writeNotice r q true).modReader r (fun y => { y with shelf := rest })).drainShelfN r n

/-- Drain a reader's notice shelf (R338). -/
def State.drainShelf (s : State) (r : ReaderId) : State := s.drainShelfN r ((s.reader r).shelf.length + 1)

/-- A WARN bit latches; SMBALERT# asserts where it was clear (R448, R450). -/
def State.warn (s : State) (n : Nat) : State :=
  if bitOf s.mgmt.warn n then s
  else { s with mgmt := { s.mgmt with warn := setBit s.mgmt.warn n true, unacked := setBit s.mgmt.unacked n true } }

/-- The REFERENCE notice: what happened, the port it names, and the lost port of a failover (Table 14.10). -/
def State.referenceNotice (s : State) (what : Nat) (port lost : PortId) : State :=
  s.ownerNotice 0x02 (leBytes 1 what ++ leBytes 1 port.val ++ leBytes 1 lost.val)

end Sys2Proof.Machine
end

