-- ==== Sys2Proof/Machine/LedgerOps.lean ====
section
/-! DEFINITION. Machine/LedgerOps.lean: accession numbers, ledger records and their chain, staging and the drain
ring, and the forming of checkpoints (R385 to R400). -/

namespace Sys2Proof.Machine

/-! ### Accession numbers (R385) -/

/-- The next accession number. -/
def Ledger.nextAccession (l : Ledger) : DWord := BitVec.ofNat 64 (l.epoch.toNat * 2 ^ 48 + l.nextCtr.toNat)
/-- Assign it. -/
def State.assign (s : State) : DWord × State :=
  (s.led.nextAccession, { s with led := { s.led with nextCtr := s.led.nextCtr + 1 } })

/-! ### Records (Tables 17.1 and 17.2) -/

/-- The fields of a record that its writer names; the rest come with the append. -/
structure RecordFields where
  kind      : Nat := 0
  accession : DWord := 0
  /-- Bytes 16 to 79: the four hashes, or what Table 17.2 puts there. -/
  hashes    : List Byte := []
  ticket    : BitVec 16 := 0
  bay       : BitVec 12 := 0
  cls       : BitVec 2 := 0
  drop      : Bool := false
  duplex    : Bool := false
  status    : BitVec 4 := 0
  detail    : BitVec 4 := 0
  path      : BitVec 7 := 0
  impure    : Bool := false
  delivery  : BitVec 4 := 0
  secondary : BitVec 4 := 0
  vslot     : Byte := 0
  replays   : Nat := 0
  recalls   : Nat := 0
  tAdmit    : DWord := 0
  tEnd      : Nat := 0
  tWait     : Nat := 0
deriving DecidableEq, Repr

/-- The 128 bytes of a record at an index of a chain epoch. -/
def RecordFields.bytes (r : RecordFields) (index : Nat) (epoch : BitVec 16) (edition : Word) (serial : DWord)
    (prev : List Byte) : List Byte :=
  leBytes 8 r.accession.toNat ++ leBytes 6 index ++ leBytes 2 epoch.toNat ++ bytesAt r.hashes 0 64 ++
    leBytes 2 r.ticket.toNat ++
    leBytes 2 (r.bay.toNat + r.cls.toNat * 2 ^ 12 + b2n r.drop * 2 ^ 14 + b2n r.duplex * 2 ^ 15) ++
    leBytes 1 (r.status.toNat + r.detail.toNat * 16) ++ leBytes 1 (r.path.toNat + b2n r.impure * 128) ++
    leBytes 1 (r.delivery.toNat + r.secondary.toNat * 16) ++ leBytes 1 r.vslot.toNat ++
    leBytes 2 (satNat 16 r.replays).toNat ++ leBytes 1 (satNat 8 r.recalls).toNat ++ leBytes 1 r.kind ++
    leBytes 4 edition.toNat ++ leBytes 8 serial.toNat ++ leBytes 8 r.tAdmit.toNat ++
    leBytes 4 (satNat 32 r.tEnd).toNat ++ leBytes 4 (satNat 32 r.tWait).toNat ++ bytesAt prev 0 4 ++ leBytes 4 0

/-- A LOST record: INDEX, CHAIN_EPOCH, and the KIND that names it (Table 17.2, R396). [log DEDUCED 122] -/
def lostBytes (index : Nat) (epoch : BitVec 16) : List Byte :=
  leBytes 8 0 ++ leBytes 6 index ++ leBytes 2 epoch.toNat ++ List.replicate 75 0 ++ [4] ++ List.replicate 36 0

/-! ### Staging (R392 to R394) -/

/-- Staged records and reservations. -/
def Ledger.load (l : Ledger) : Nat := l.staged.length + l.reserved
/-- U ≥ n (R393). -/
def Ledger.hasRoom (l : Ledger) (n : Nat) : Bool := decide (l.load + n ≤ l.capacity)
/-- The oldest staged records, which the archive ledger ring takes in index order while it has room; the others lie on the
staging shelf (R392). -/
def Ledger.ringLen (l : Ledger) : Nat := if l.ring then min l.staged.length (l.capacity - 65536) else 0
/-- Where the record of an index lies on the staging shelf: 512 records at DEVICE offset 0x4E0000 of each of the first 128
logical carrels of its folio, in row-major order (R392). [log DEDUCED 187] -/
def shelfPlace (f : FolioId) (i : Nat) : Location :=
  let n := i / 512 % 128
  .stackMem (carrelAt (68 * folioX f + n % 68) (68 * folioY f + n / 68)) (0x4E0000 + 128 * (i % 512))
/-- Where the record of an index lies in the archive ledger ring over channels in increasing number: block i div 32, striped
over the channels, at byte 128 × (i mod 32) (R412). [log DEDUCED 187] -/
def ringPlace (chs : List Nat) (i : Nat) : Location :=
  let i := i % (8388608 * chs.length)
  .archive (chs.getD (i / 32 % chs.length) 0) (0x180000000 + 4096 * (i / 32 / chs.length) + 128 * (i % 32))
/-- Where staged record `n` lies, the oldest first. -/
def State.stagePlace (s : State) (n : Nat) : Option Location :=
  match s.led.staged[n]? with
  | none => none
  | some r =>
    if n < s.led.ringLen then some (ringPlace ((List.range 256).filter s.channelInService) r.index)
    else s.led.shelfFolio.map (fun f => shelfPlace f r.index)
/-- Add to, or take from, the reservations. -/
def State.reserveStaging (s : State) (up down : Nat) : State :=
  { s with led := { s.led with reserved := s.led.reserved + up - down } }

/-- The LEDGER notices, once per crossing (R394). -/
def State.ledgerWatch (s : State) : State :=
  let half := decide (s.led.capacity ≤ 2 * s.led.load)
  let full := !s.led.hasRoom 2
  let s1 := if half && !s.led.wasHalf then
      { s with led := { s.led with wasHalf := true, evHalf := true } } |>.ownerNotice 0x08 [1]
    else s
  let s2 := if full && !s1.led.wasFull then
      { s1 with led := { s1.led with evFull := true } } |>.ownerNotice 0x08 [2]
    else s1
  let s3 : State := { s2 with led := { s2.led with wasFull := full } }
  if !half && s3.led.wasHalf then
    ({ s3 with led := { s3.led with wasHalf := false } } : State).ownerNotice 0x08 [3]
  else s3

/-! ### Draining (R395, R396) -/

/-- Entries of the drain ring. [log DEDUCED 133] -/
def Ledger.drainEntries (l : Ledger) : Nat := 2 ^ l.drSize.toNat
/-- Records in the drain ring that the owner has not freed. -/
def Ledger.drainUnfreed (l : Ledger) : Nat :=
  (l.drTail.toNat + l.drainEntries - l.drHead.toNat % l.drainEntries) % l.drainEntries

/-- Write the records that fit; the Bool says whether one was written. -/
def State.drainN (s : State) (did : Bool) : Nat → State × Bool
  | 0 => (s, did)
  | n + 1 =>
    if decide (s.led.drainUnfreed < s.led.drainEntries - 1) then
      match s.led.staged[s.led.written]? with
      | none => (s, did)
      | some r =>
        let bs := if r.lost then lostBytes r.index r.epoch else r.bytes
        let t := s.postWindow .drain s.ownerFn (s.led.drBase.toNat + 128 * s.led.drTail.toNat) bs
        let l := { t.led with
          written := t.led.written + 1,
          drTail := BitVec.ofNat 20 ((t.led.drTail.toNat + 1) % t.led.drainEntries),
          evLost := t.led.evLost || r.lost,
          lostCount := if r.lost then satInc t.led.lostCount else t.led.lostCount }
        ({ t with led := l } : State).drainN true n
    else (s, did)

/-- When the owner function becomes present again, DRAIN_TAIL goes back to DRAIN_HEAD: what was written and not freed is
written again (R396). -/
def Ledger.redrain (l : Ledger) : Ledger := if l.drAway then { l with drTail := l.drHead, written := 0, drAway := false } else l

/-- Drain what the ring takes, then write the tail mirror. -/
def State.drain (s : State) : State :=
  if s.isPresent s.ownerFn then
    let s : State := { s with led := s.led.redrain }
    if s.led.drainEn then
      match s.drainN false (s.led.staged.length - s.led.written) with
      | (t, true) =>
        t.postWindow .mirror t.ownerFn t.led.mirror.toNat
          (leBytes 4 t.led.drTail.toNat ++ leBytes 2 t.led.epoch.toNat ++ leBytes 2 0)
      | (t, false) => t
    else s
  else { s with led := { s.led with drAway := true } }

/-! ### Flash writes (R404 to R406) -/

/-- The programs of bytes at an offset, a page of 256 bytes at a time; `n` bounds their number. -/
def pagePrograms (off : Nat) (bs : List Byte) : Nat → List FlashStep
  | 0 => []
  | n + 1 =>
    if bs.isEmpty then []
    else
      let k := 256 - off % 256
      .program off (bs.take k) :: pagePrograms (off + k) (bs.drop k) n

/-- COMMIT (R405). -/
def commitBytes : List Byte := leBytes 4 0x0F1E2D3C
/-- What a flash byte reads as. [log PRESUMED 4] -/
def State.flashRead (s : State) (off n : Nat) : List Byte := (s.flash.slice off n).read Memory.erased 0 n
/-- Nothing was written there since the erase. [log PRESUMED 4] -/
def allErased (bs : List Byte) : Bool := bs.all (· == Memory.erased)
/-- Block n of the field errata. -/
def State.errataBlock (s : State) (n : Nat) : List Byte := s.flashRead (0x30000 + 4096 * n) 4096
/-- The first block after the last one that is not erased. -/
def State.errataNext (s : State) : Nat :=
  (List.range 48).foldl (fun m n => if allErased (s.errataBlock n) then m else n + 1) 0
/-- Write the object of `bytes` whose CRC stands at `crcAt` from `off`: body, then the words after it one by one,
COMMIT last (R405). -/
def objectSteps (off : Nat) (bytes : List Byte) (crcAt : Nat) : List FlashStep :=
  pagePrograms off (bytes.take crcAt) (crcAt / 256 + 2) ++
    (List.range ((bytes.length - crcAt) / 4)).map (fun i => .program (off + crcAt + 4 * i) (bytesAt bytes (crcAt + 4 * i) 4))

/-- The curator may give the flash a command: no freeze and no takeover stops it (R406). -/
def State.flashRuns (s : State) : Bool := !s.frozen && !s.cur.taking && !s.cur.lost && s.pwr.powered
/-- Base of the checkpoint ring, and its slots (Table 17.4). -/
def cpRingBase : Nat := 0x04000000
/-- Slots of the checkpoint ring. -/
def cpSlots : Nat := 262144
/-- A slot is erased. -/
def State.cpErased (s : State) (slot : Nat) : Bool :=
  !s.flash.any (fun c => inSpan c.1 (cpRingBase + 256 * slot) 256)
/-- The slot that a checkpoint takes: the next one that is erased, or the first of a sector, which is then erased
(R404, R406); `n` bounds the search. [log DEDUCED 123] -/
def State.cpPlace (s : State) (slot : Nat) : Nat → Nat
  | 0 => slot
  | n + 1 => if s.cpErased slot || slot % 256 == 0 then slot else s.cpPlace ((slot + 1) % cpSlots) n
/-- The sector of a slot. -/
def cpSector (slot : Nat) : Nat := cpRingBase + slot / 256 * 65536
/-- The steps that write a checkpoint into a slot: three programs, after an erase where the slot is not erased
(R404). [log DEDUCED 123] -/
def State.cpSteps (s : State) (slot : Nat) (bs : List Byte) : List FlashStep :=
  let off := cpRingBase + 256 * slot
  (if s.cpErased slot then [] else [.erase (cpSector slot) 65536]) ++
    [.program off (bs.take 248), .program (off + 248) (bytesAt bs 248 4), .program (off + 252) (bytesAt bs 252 4)]

/-! ### The flash after a freeze or a takeover (R406) -/

/-- An object that was begun is written again from its start: a checkpoint in a fresh slot, a bookplate in the same
inactive slot, an errata block, with those after it, in fresh blocks from block `free` up. [log DEDUCED 123] -/
def State.rewriteJob (s : State) (free : Nat) (j : FlashJob) : State × FlashJob :=
  let begun := decide (j.steps ≠ j.whole)
  let counts := match j.kind with
    | .ahead => false
    | _ => begun
  let l := if counts then { s.led with rewrites := satInc s.led.rewrites } else s.led
  match j.kind with
  | .checkpoint slot bs =>
    if begun then
      let next := s.cpPlace l.cpSlot 256
      let steps := s.cpSteps next bs
      ({ s with led := { l with cpSlot := (next + 1) % cpSlots } }, ⟨.checkpoint next bs, steps, steps⟩)
    else (s, ⟨.checkpoint slot bs, j.whole, j.whole⟩)
  | .errata bs =>
    let steps := objectSteps (0x30000 + 4096 * free) bs 4088
    ({ s with led := l }, ⟨.errata bs, steps, steps⟩)
  | k => ({ s with led := l }, ⟨k, j.whole, j.whole⟩)
/-- An errata write. -/
def FlashJob.isErrata (j : FlashJob) : Bool :=
  match j.kind with
  | .errata _ => true
  | _ => false
/-- Every unfinished object, in the order of the writes. -/
def State.rewriteJobs (s : State) : State :=
  let r := s.nvs.jobs.foldl (fun (a : State × List FlashJob) j =>
    let q := a.1.rewriteJob (s.errataNext + (a.2.filter FlashJob.isErrata).length) j
    (q.1, a.2 ++ [q.2])) (s, [])
  { r.1 with nvs := { r.1.nvs with jobs := r.2, stopped := false } }

/-- A write of a checkpoint. -/
def FlashJob.isCheckpoint (j : FlashJob) : Bool :=
  match j.kind with
  | .checkpoint .. => true
  | _ => false
/-- The next flash operation begins: a checkpoint's page comes between the pages of another write (R406). -/
def State.flashNext (s : State) : State :=
  if s.nvs.busy || !s.flashRuns || s.nvs.jobs.isEmpty then s
  else
    let s := if s.nvs.stopped then s.rewriteJobs else s
    let js := s.nvs.jobs
    let js := js.filter FlashJob.isCheckpoint ++ js.filter (fun j => !j.isCheckpoint)
    { s with nvs := { s.nvs with jobs := js, busy := true } }
/-- A freeze or takeover stops the curator between flash commands. -/
def State.flashStop (s : State) : State := { s with nvs := { s.nvs with stopped := !s.nvs.jobs.isEmpty } }

/-- Start a flash write: it waits behind the writes in progress. -/
def State.flashStart (s : State) (kind : FlashJobKind) (steps : List FlashStep) : State :=
  ({ s with nvs := { s.nvs with jobs := s.nvs.jobs ++ [⟨kind, steps, steps⟩] } } : State).flashNext

/-! ### Checkpoints (R397 to R399) -/

/-- The highest accession number assigned; zero before the first of the epoch. [log DEDUCED 121] -/
def Ledger.lastAccession (l : Ledger) : Nat :=
  if l.nextCtr.toNat ≤ 1 then 0 else l.epoch.toNat * 2 ^ 48 + (l.nextCtr.toNat - 1)

/-- The device public key as LED.DEVKEY shows it: 97 bytes, from the identity secret of the imprint (R399). -/
def State.deviceKey (s : State) : List Byte :=
  [0x04] ++ beBytes 48 (Config.deviceKeyX s.imprint.secret).toNat ++ beBytes 48 (Config.deviceKeyY s.imprint.secret).toNat

/-- The 256 bytes of a checkpoint (Table 17.3); the signature is a free value (R399). -/
def State.cpBytes (s : State) (start : Bool) : List Byte :=
  let l := s.led
  let body :=
    [0x50, 0x5A, 0x43, 0x50] ++ leBytes 2 1 ++ leBytes 2 l.epoch.toNat ++ leBytes 8 l.cpSeq.toNat ++
    leBytes 8 l.nextIndex ++ bytesAt l.head 0 32 ++ leBytes 8 s.clk.tick.toNat ++ leBytes 8 s.imprint.serial.toNat ++
    leBytes 8 l.lastAccession ++ leBytes 4 s.inv.tag.toNat ++ leBytes 1 (b2n start + 2 * b2n l.closed) ++
    leBytes 1 0 ++ leBytes 2 l.era.toNat ++
    (if l.lastCp.isEmpty then List.replicate 32 0 else sha256 (l.lastCp.take 216)) ++
    beBytes 48 (Config.deviceSigR s.free).toNat ++ beBytes 48 (Config.deviceSigS s.free).toNat ++
    List.replicate 32 0
  body ++ leBytes 4 (crc32c body).toNat ++ commitBytes

/-- Form a checkpoint now, or when the one being written commits; plain mode writes none (R397, R403). -/
def State.checkpoint (s : State) (start : Bool) : State :=
  if s.led.plain || !s.led.started then s
  else if s.led.cpBusy then { s with led := { s.led with cpAgain := true } }
  else
    let bs := s.cpBytes start
    let slot := s.cpPlace s.led.cpSlot 256
    let t := s.flashStart (.checkpoint slot bs) (s.cpSteps slot bs)
    let l := { t.led with
      cpBusy := true, sinceCp := 0, cpTick := t.clk.tick, cpSlot := (slot + 1) % cpSlots, cpCmd := t.led.cpNext,
      cpNext := false }
    { t with free := t.free + 1, led := l }

/-! ### The chain (R391) -/

/-- Append a record: it takes the next index, carries bytes 0–3 of the chain head, and moves the head on. -/
def State.append (s : State) (r : RecordFields) : State :=
  let l := s.led
  let bs := r.bytes l.nextIndex l.epoch s.inv.tag s.imprint.serial l.head
  let l' := { l with
    staged := l.staged ++ [{ index := l.nextIndex, epoch := l.epoch, bytes := bs }],
    nextIndex := l.nextIndex + 1, head := sha256 (bytesAt l.head 0 32 ++ bs), sinceCp := l.sinceCp + 1 }
  let t : State := { s with led := l' }
  let t := if 4096 ≤ t.led.sinceCp then t.checkpoint false else t
  t.ledgerWatch.drain

end Sys2Proof.Machine
end

