-- ==== Sys2Proof/Machine/Verdict.lean ====
section
/-! DEFINITION. Machine/Verdict.lean: how an accession ends: its ledger record, its verdict record with any payload,
the hold shelf and late delivery (R333 to R342, R386 to R390). -/

namespace Sys2Proof.Machine

/-- A class has taken effect: 0 urgent, 1 standard, 2 bulk; 3 stands for none. -/
def Request.hasClass (q : Request) : Bool := q.cls != 3
/-- The MSI-X vector of a request's record (R339). -/
def Request.vector (q : Request) : Nat := if q.cls = 0 then 0 else 1

/-- What is known of an accession at its end. -/
structure Closing where
  req      : Request
  acc      : DWord
  ticket   : BitVec 16
  ending   : Ending
  vhash    : List Byte := zeroHash
  /-- The payload, where the status releases one (R334). -/
  payload  : Option (List Byte) := none
  path     : BitVec 7 := 0
  impure   : Bool := false
  replays  : Nat := 0
  recalls  : Nat := 0
  tAdmit   : DWord := 0
  tEnd     : Nat := 0
  tWait    : Nat := 0
  volume   : List Byte := zeroHash
  codex    : List Byte := zeroHash
  duplex   : Bool := false
deriving DecidableEq, Repr

/-- The verdict record with PHASE and LATE clear (Table 14.6). -/
def Closing.record (d : Closing) : List Byte :=
  let pay := d.payload.getD []
  let inline := d.req.outInline && d.payload.isSome
  leBytes 8 d.req.cookie.toNat ++ leBytes 8 d.acc.toNat ++ bytesAt d.vhash 0 16 ++ leBytes 2 d.req.bayRaw.toNat ++
    leBytes 1 d.req.vslot.toNat ++
    leBytes 1 (2 * b2n inline +
      (match d.req.drop with
       | none => 0
       | some n => 4 + 8 * n.val)) ++
    leBytes 1 (d.ending.status.toNat + 16 * d.ending.detail.toNat) ++
    leBytes 1 (d.path.toNat + 128 * b2n d.impure) ++ leBytes 2 pay.length ++ leBytes 4 (satNat 32 d.tEnd).toNat ++
    leBytes 2 (satNat 16 d.replays).toNat ++ leBytes 1 (satNat 8 d.recalls).toNat ++ leBytes 1 0 ++
    (if inline then bytesAt pay 0 16 else List.replicate 16 0)

/-- The ledger record's fields (Table 17.1). -/
def Closing.fields (d : Closing) (delivery : BitVec 4) : RecordFields :=
  { kind := 0, accession := d.acc,
    hashes := d.volume ++ d.codex ++ (if d.req.input.isEmpty then zeroHash else inputHash d.req.input) ++ d.vhash,
    ticket := d.ticket, bay := d.req.bayRaw.setWidth 12, cls := if d.req.hasClass then d.req.cls else 0,
    drop := d.req.drop.isSome, duplex := d.duplex, status := d.ending.status, detail := d.ending.detail,
    path := d.path, impure := d.impure, delivery := delivery, secondary := d.ending.secondary, vslot := d.req.vslot,
    replays := d.replays, recalls := d.recalls, tAdmit := d.tAdmit, tEnd := d.tEnd, tWait := d.tWait }

/-- A record of this reader can be written now: it is present, none of its held records waits (R341), and the ring
has an entry. -/
def State.canDeliver (s : State) (r : ReaderId) : Bool :=
  s.isPresent r && (s.reader r).held.isEmpty && decide (0 < (s.reader r).verRing.room)

/-- PHASE and LATE of a record as it is written; a late OK is LATE_OK (R341). -/
def stampRecord (bs : List Byte) (phase late : Bool) : List Byte :=
  let b35 := (bytesAt bs 35 1).headD 0
  let b36 := (bytesAt bs 36 1).headD 0
  let bs := bs.set 35 (b35 ||| BitVec.ofNat 8 (b2n phase + 64 * b2n late))
  if late && b36.setWidth 4 == (0 : BitVec 4) then bs.set 36 (b36 ||| 6) else bs

/-- Write the payload, the record and the vector's message, in that order (R250, R334, R335). [log DEDUCED 78] -/
def State.writeVerdict (s : State) (r : ReaderId) (h : Held) (late : Bool) : State :=
  let t := if h.outInline then s else s.postChunks .payload r h.outAddr h.payload (h.payload.length / 512 + 1)
  let g := (t.reader r).verRing
  let t := t.postWindow .verdict r (g.base.toNat + 64 * g.tail.toNat) (stampRecord h.record g.phase late)
  let t := t.modReader r (fun x => { x with verRing := x.verRing.push })
  let t := t.modPort (readerPort r) (fun p => { p with records := satInc p.records })
  t.msix r (if h.vector = 0 then 0 else 1)

/-- The outcome of a held record enters the ledger (R389); its entry of staging is freed. -/
def State.deliveryRecord (s : State) (h : Held) (code : BitVec 4) : State :=
  (s.reserveStaging 0 1).append
    { kind := 1, accession := h.acc, hashes := List.replicate 48 0 ++ h.vhash, ticket := h.ticket, delivery := code,
      tAdmit := s.clk.tick }

/-- Discard a held record: the ledger, the count and the HOLD_DISCARD notice (R342). [log DEDUCED 78] -/
def State.discard (s : State) (r : ReaderId) (h : Held) (code : BitVec 4) : State :=
  let t := s.deliveryRecord h code
  let t : State := { t with portRegs := { t.portRegs with discards := satInc t.portRegs.discards } }
  t.ownerNotice 0x0B (leBytes 8 h.acc.toNat ++ leBytes 2 r.toNat ++ leBytes 1 code.toNat)

/-- Discard every held record of a reader with one code. -/
def State.discardAll (s : State) (r : ReaderId) (code : BitVec 4) : State :=
  let hs := (s.reader r).held
  hs.foldl (fun t h => t.discard r h code) (s.modReader r (fun x => { x with held := [] }))

/-- Records on the hold shelf. -/
def State.heldCount (s : State) : Nat := (s.readers.map (fun e => e.2.held.length)).sum

/-- The tick of the oldest held record of a reader. -/
def Reader.oldestHeld (x : Reader) : Nat :=
  match x.held with
  | [] => 0
  | h :: _ => h.since

/-- The reader that holds the most records; among equals, the one whose record has waited longest (R341). -/
def State.fullestReader (s : State) : Option ReaderId :=
  (s.readers.foldl (fun (best : Option (Nat × Reader)) e =>
    match best with
    | none => if e.2.held.isEmpty then none else some e
    | some b =>
      if b.2.held.length < e.2.held.length ∨
          (b.2.held.length = e.2.held.length ∧ e.2.oldestHeld < b.2.oldestHeld) then some e
      else some b) none).map (fun e => BitVec.ofNat 12 e.1)

/-- Discard the oldest held record of a reader. -/
def State.discardOldest (s : State) (r : ReaderId) (code : BitVec 4) : State :=
  match (s.reader r).held with
  | [] => s
  | h :: rest => (s.modReader r (fun x => { x with held := rest })).discard r h code

/-- The hold time in ticks (R341, R346). -/
def State.holdTicks (s : State) : Nat := s.portRegs.hold.toNat * 100

/-- Put a record on the hold shelf, making room as R341 gives; a hold time of 0 discards it at once. -/
def State.holdRecord (s : State) (r : ReaderId) (h : Held) : State :=
  if s.holdTicks = 0 then s.discard r h 2
  else
    let s := if 64 ≤ (s.reader r).held.length then s.discardOldest r 4
      else if 16384 ≤ s.heldCount then
        (match s.fullestReader with
         | none => s
         | some q => s.discardOldest q 4)
      else s
    s.modReader r (fun x => { x with held := x.held ++ [h] })

/-- Deliver a present reader's held records, oldest first; one held for the hold time is discarded instead (R11, R341).
`n` bounds them. -/
def State.deliverHeldN (s : State) (r : ReaderId) : Nat → State
  | 0 => s
  | n + 1 =>
    match (s.reader r).held with
    | [] => s
    | h :: rest =>
      if h.since + s.holdTicks ≤ s.ext then (s.discardOldest r 2).deliverHeldN r n
      else if s.isPresent r && decide (0 < (s.reader r).verRing.room) then
        let t := (s.writeVerdict r h true).modReader r (fun x => { x with held := rest })
        let t : State := { t with portRegs := { t.portRegs with late := satInc t.portRegs.late } }
        (t.deliveryRecord h 1).deliverHeldN r n
      else s

/-- Deliver what a present reader has on the hold shelf (R341). -/
def State.deliverHeld (s : State) (r : ReaderId) : State := s.deliverHeldN r (s.reader r).held.length

/-- The counts of a request's end in its reader's RDR block (Tables 14.16 and 15.3). -/
def Reader.countEnd (x : Reader) (q : Request) (status : BitVec 4) : Reader :=
  if status = 5 then { x with refused := satInc x.refused }
  else if h : q.cls.toNat < 3 then
    if status = 2 then { x with overdue := x.overdue.set q.cls.toNat (satInc x.overdue[q.cls.toNat]) }
    else if status = 4 then { x with cancelled := x.cancelled.set q.cls.toNat (satInc x.cancelled[q.cls.toNat]) }
    else x
  else x

/-- An accession ends: the ledger record first, then the verdict record, or the hold shelf (R386, R389). `reserved`
is what staging held for it (2 for an admitted request, 1 for a refusal or a cancelled candidate: R393). -/
def State.finish (s : State) (d : Closing) (reserved : Nat) : State :=
  let r := d.req.reader
  let now := s.canDeliver r
  let s := s.reserveStaging (if now then 0 else 1) reserved
  let s := s.append (d.fields (if now then 0 else 0xF))
  let s := s.modReader r (fun x => x.countEnd d.req d.ending.status)
  let h : Held :=
    { acc := d.acc, record := d.record, payload := d.payload.getD [], outAddr := d.req.outAddr,
      outInline := d.req.outInline, vhash := d.vhash, ticket := d.ticket, since := s.ext, vector := d.req.vector }
  if now then s.writeVerdict r h false else s.holdRecord r h

end Sys2Proof.Machine
end

