-- ==== Sys2Proof/Machine/PassOps.lean ====
section
/-! DEFINITION. Machine/PassOps.lean: requests and passes: candidates and refusals, bookmarks, endings, recalls,
admission and preemption (chapters 12, 13, 15, 18). -/

namespace Sys2Proof.Machine

/-! ### What the codex says of a bay and a reader -/

/-- The bay is the SECOND of a duplex pair. -/
def State.isSecond (s : State) (b : BayId) : Bool :=
  match s.cdx.codex with
  | none => false
  | some c => c.duplex.any (fun d => d.second == b)
/-- The bay is the FIRST of a duplex pair. -/
def State.isFirst (s : State) (b : BayId) : Bool :=
  match s.cdx.codex with
  | none => false
  | some c => c.duplex.any (fun d => d.first == b)
/-- The other bay of a duplex pair. -/
def State.partner (s : State) (b : BayId) : Option BayId :=
  match s.cdx.codex with
  | none => none
  | some c =>
    match c.duplex.find? (fun d => d.first == b || d.second == b) with
    | none => none
    | some d => some (if d.first = b then d.second else d.first)
/-- The bay, and its partner where it has one. -/
def State.pair (s : State) (b : BayId) : List BayId :=
  match s.partner b with
  | none => [b]
  | some c => [b, c]
/-- The bays of the codex in force. -/
def State.bayIds (s : State) : List BayId :=
  match s.cdx.codex with
  | none => []
  | some c => c.bays.map (fun e => e.bay)
/-- Shelving holds a carrel's stacks port (R139). -/
def State.portShelves (s : State) (c : CarrelId) : Bool :=
  s.bayIds.any (fun b => ((s.bay b).phase == .shelvingOut || (s.bay b).phase == .shelvingIn) && (s.bayCarrels b).contains c)

/-- A READERS entry binds the reader to the bay in the class (R329, R349). -/
def State.bound (s : State) (r : ReaderId) (b : BayId) (cls : BitVec 2) : Bool :=
  match s.cdx.codex with
  | none => false
  | some c => c.readers.any (fun e => e.reader == r && e.bay == b && e.classes.getLsbD cls.toNat)
/-- WEIGHT of a reader and class; 1 where no QOS entry names it (Table 11.7). -/
def State.weight (s : State) (r : ReaderId) (cls : BitVec 2) : Nat :=
  match s.cdx.codex with
  | none => 1
  | some c =>
    match c.qos.find? (fun q => q.reader == r && q.cls == cls) with
    | none => 1
    | some q => q.weight
/-- MAX_OUT of a reader and class; 16 where no QOS entry names it. -/
def State.maxOut (s : State) (r : ReaderId) (cls : BitVec 2) : Nat :=
  match s.cdx.codex with
  | none => 16
  | some c =>
    match c.qos.find? (fun q => q.reader == r && q.cls == cls) with
    | none => 16
    | some q => q.maxOut
/-- The loan periods of a bay and class: PASS_LOAN and REQUEST_LOAN. -/
def State.loans (s : State) (b : BayId) (cls : BitVec 2) : Word × Word :=
  match s.cdx.codex with
  | none => (0, 0)
  | some c =>
    match c.loans.find? (fun l => l.bay == b && l.cls == cls) with
    | none => (0, 0)
    | some l => (l.pass, l.request)

/-! ### Counting requests -/

/-- Every pass of a bay: running or set up, shelved, and waiting for the carrels. -/
def Bay.allPasses (x : Bay) : List Pass := x.pass.toList ++ x.shelved.toList ++ x.next
/-- Passes whose request is admitted and unended; a SECOND bay's passes are its FIRST's requests (R350, R422). -/
def State.openPasses (s : State) : List Pass :=
  s.bays.flatMap (fun e =>
    if s.isSecond (BitVec.ofNat 12 e.1) then [] else e.2.allPasses.filter (fun p => !p.recorded))
/-- A reader's admitted and unended requests of a class (R350). -/
def State.outstanding (s : State) (r : ReaderId) (cls : BitVec 2) : Nat :=
  (s.openPasses.filter (fun p => p.req.reader == r && p.req.cls == cls)).length
/-- A reader's admitted and unended requests. -/
def State.outstandingAll (s : State) (r : ReaderId) : Nat :=
  (s.openPasses.filter (fun p => p.req.reader == r)).length
/-- Verdict entries reserved for a reader (R336): its read in progress, candidates, waiting refusals, admitted
requests and held records. -/
def State.reservedEntries (s : State) (r : ReaderId) : Nat :=
  b2n (s.reader r).reading.isSome +
    (s.cands.filter (fun q => q.reader == r)).length +
    (s.waits.filter (fun w => w.1.reader == r)).length + s.outstandingAll r + (s.reader r).held.length
/-- A verdict entry can be reserved (R336). [log DEDUCED 53] -/
def State.canReserve (s : State) (r : ReaderId) : Bool :=
  s.isPresent r && decide (s.reservedEntries r < (s.reader r).verRing.room)

/-! ### Refusals and cancelled candidates -/

/-- A reader's ticket (R348). -/
def State.ticketOf (s : State) (r : ReaderId) : BitVec 16 := (s.reader r).epoch ++ r
/-- Ticks from one CLK.TICK to the present one. [log DESIGN CHOICE 10] -/
def State.since (s : State) (t : DWord) : Nat := (s.clk.tick - t).toNat

/-- The slot a book-drop request came in becomes free again (R332). -/
def State.freeSlot (s : State) (q : Request) : State :=
  match q.drop with
  | none => s
  | some n => s.modReader q.reader (fun x => { x with drop := x.drop.set n { x.drop[n] with captured := false } })

/-- The volume and codex hashes of the bay and VSLOT that a request names, zero where they do not exist. -/
def State.requestHashes (s : State) (q : Request) : List Byte × List Byte :=
  let b : BayId := q.bayRaw.setWidth 12
  match s.bayEntry b with
  | none => (zeroHash, zeroHash)
  | some _ =>
    ((match (s.bay b).volume q.vslot with
      | none => zeroHash
      | some v => bytesAt v.hash 0 16), bytesAt (s.bay b).chash 0 16)

/-- A request that was never admitted ends (R329, R357): an accession number, a ledger record and a verdict record. -/
def State.endUnadmitted (s : State) (q : Request) (status detail : BitVec 4) : State :=
  let (acc, t) := s.assign
  let (vol, cod) := s.requestHashes q
  (t.freeSlot q).finish
    { req := q, acc := acc, ticket := s.ticketOf q.reader, ending := { status := status, detail := detail },
      tAdmit := s.clk.tick, tWait := s.since q.capture, volume := vol, codex := cod } 0

/-- Refuse a request, or keep it in its place while staging has no room (R393). [log DEDUCED 50] -/
def State.refuse (s : State) (q : Request) (detail : BitVec 4) : State :=
  if s.led.hasRoom 1 then s.endUnadmitted q 5 detail else { s with waits := s.waits ++ [(q, detail)] }

/-- Refusals that waited for staging; `n` bounds them. [log DEDUCED 50] -/
def State.runWaits (s : State) : Nat → State
  | 0 => s
  | n + 1 =>
    match s.waits with
    | [] => s
    | (q, d) :: rest =>
      if s.led.hasRoom 1 then (({ s with waits := rest } : State).endUnadmitted q 5 d).runWaits n else s

/-! ### Bookmarks (chapter 13) -/

/-- The delta metadata of a volume: threshold, width, BM_SRAM, BM_BYTES. -/
def bmSramOf (v : Volume) : Nat := (v.delta.getD (0, 0, 0, 0)).2.2.1
/-- BM_BYTES of a volume. -/
def bmBytesOf (v : Volume) : Nat := (v.delta.getD (0, 0, 0, 0)).2.2.2
/-- The slot size S of a bay (R295). -/
def Bay.slotSize (x : Bay) : Nat :=
  64 + (x.vslots.filterMap (fun e => e.2)).foldl (fun m v => max m (bmBytesOf v)) 0
/-- The stacks-tier sets of a bay (R295). -/
def Bay.sets (x : Bay) : Nat := 393216 / x.slotSize / 8

/-- A bookmark carries a tag (R293). -/
def Bookmark.tagged (m : Bookmark) (vslot : Byte) (vol : List Byte) (r : ReaderId) (key : DWord) : Bool :=
  m.vslot == vslot && m.volume == vol && m.reader == r && m.key == key
/-- A pass holds a bookmark's tag. -/
def Pass.holds (p : Pass) (vol : List Byte) (m : Bookmark) : Bool := m.tagged p.req.vslot vol p.req.reader p.req.key
/-- A bookmark is in flight while a request with its tag is admitted and has not ended (R298). -/
def Bay.inFlight (x : Bay) (m : Bookmark) : Bool :=
  x.allPasses.any (fun p =>
    !p.recorded && (match x.volume p.req.vslot with
                    | none => false
                    | some v => p.holds (bytesAt v.hash 0 16) m))

/-- The bookmark in one set of one tier that has the lowest recency and is not in flight. -/
def Bay.victim (x : Bay) (archive : Bool) (set : Nat) : Option Bookmark :=
  (x.bookmarks.filter (fun m => m.archive == archive && m.set == set && !x.inFlight m)).foldl
    (fun best m =>
      match best with
      | none => some m
      | some o => if m.recent.toNat < o.recent.toNat then some m else some o) none
/-- Ways in use in a set of a tier. -/
def Bay.ways (x : Bay) (archive : Bool) (set : Nat) : Nat :=
  (x.bookmarks.filter (fun m => m.archive == archive && m.set == set)).length

/-- The archive works and is in service: an archive channel is in service (R131). -/
def State.archiveWorks (s : State) : Bool := (List.range 256).any s.channelInService

/-- Where slot `n` of a bay's stacks tier lies in every carrel's cell (R295). -/
def Bay.slotAt (x : Bay) (n : Nat) : Nat := 0x480000 + n * x.slotSize
/-- The parts in the slot at an offset of every cell, past the 64 bytes of its tag (R295). [log DESIGN CHOICE 61] -/
def State.readParts (s : State) (b : BayId) (off len : Nat) : List (List Byte) :=
  (s.bayCarrels b).map (fun c => (s.carrel c).stackMem.read Memory.blank (off + 64) len)
/-- Parts are written into a slot of every carrel of the bay (R295). -/
def State.fillSlot (s : State) (b : BayId) (n : Nat) (parts : List (List Byte)) : State :=
  ((s.bayCarrels b).zip parts).foldl (fun t cp =>
    t.modCarrel cp.1 (fun k =>
      { k with stackMem := k.stackMem.write Memory.blank ((s.bay b).slotAt n + 64) cp.2 })) s
/-- A way of a stacks-tier set that no bookmark holds. -/
def Bay.freeWay (x : Bay) (set : Nat) : Option Nat :=
  ((List.range 8).map (fun i => 8 * set + i)).find? (fun n => !x.bookmarks.any (fun m => !m.archive && m.slot == n))

/-- A bookmark evicted from the stacks tier moves to the archive tier with its parts, or is discarded (R297). -/
def State.toArchive (s : State) (b : BayId) (m : Bookmark) : State :=
  let x := s.bay b
  if !s.archiveWorks || x.ovfSets = 0 then s
  else
    let set := m.key.toNat % x.ovfSets.toNat
    let len := match x.volume m.vslot with
      | none => 0
      | some v => bmBytesOf v
    let m := { m with archive := true, set := set, slot := 0, parts := s.readParts b (x.slotAt m.slot) len }
    if x.ways true set < 8 then s.modBay b (fun y => { y with bookmarks := y.bookmarks ++ [m] })
    else match x.victim true set with
      | none => s
      | some v => s.modBay b (fun y => { y with bookmarks := y.bookmarks.erase v ++ [m] })

/-- Put a bookmark with its parts into a slot of its stacks-tier set, evicting under R298; the Bool says whether a way was
found. [log DEDUCED 59] -/
def State.place (s : State) (b : BayId) (m : Bookmark) : State × Bool :=
  let x := s.bay b
  let full (t : State) : State := t.modBay b (fun y => { y with bmNoWay := satInc y.bmNoWay })
  if x.sets = 0 then (full s, false)
  else
    let set := m.key.toNat % x.sets
    let put (t : State) (n : Nat) : State :=
      (t.fillSlot b n m.parts).modBay b (fun y =>
        { y with bookmarks := y.bookmarks ++ [{ m with archive := false, set := set, slot := n, parts := [] }] })
    match x.freeWay set, x.victim false set with
    | some n, _ => (put s n, true)
    | none, none => (full s, false)
    | none, some v =>
      let t := s.modBay b (fun y => { y with bookmarks := y.bookmarks.erase v, bmEvict := satInc y.bmEvict })
      (put (t.toArchive b v) v.slot, true)

/-- The bookmark of a pass's tag. -/
def Bay.findTag (x : Bay) (v : Volume) (q : Request) : Option Bookmark :=
  x.bookmarks.find? (fun m => m.tagged q.vslot (bytesAt v.hash 0 16) q.reader q.key)
/-- Invalidate the bookmark of a pass's tag. -/
def Bay.dropTag (x : Bay) (v : Volume) (q : Request) : Bay :=
  { x with bookmarks := x.bookmarks.filter (fun m => !m.tagged q.vslot (bytesAt v.hash 0 16) q.reader q.key) }

/-- PATH and COUNT as the volume left them in the ingress carrel's part (Table 13.2). -/
def State.reportedPath (s : State) (b : BayId) (v : Volume) : Nat × Nat :=
  match s.bayEntry b with
  | none => (0, 0)
  | some e =>
    let m := (s.carrel (carrelAt (e.x0 + v.inDx) (e.y0 + v.inDy))).sram
    (leNat (m.read Memory.blank (bmSramOf v + 4) 4), leNat (m.read Memory.blank (bmSramOf v + 8) 4))

/-- The path code (Table 13.3, R305): a report of the delta path without a hit or from T changes up, or of no path that
there is, is inconsistent whatever the request. A hit whose volume reports the exact path carries 0x1.
[log DEDUCED 52] -/
def pathCodeOf (p : Pass) (t path count : Nat) : BitVec 7 :=
  if 1 < path ∨ (path = 1 ∧ (p.hit = false ∨ t ≤ count)) then 5
  else if p.noBm then 4
  else if p.concurrent then 3
  else if path = 1 then 2
  else if p.hit then 1 else 0

/-- The path code of a pass as it stands: read from the status block once its release boundary has passed, else
what the lookup says. [log DEDUCED 52] -/
def State.passPath (s : State) (b : BayId) (p : Pass) : BitVec 7 :=
  match (s.bay b).volume p.req.vslot with
  | none => pathCodeOf p 0 0 0
  | some v =>
    match v.delta with
    | none => pathCodeOf p 0 0 0
    | some d =>
      let r := if p.gated then s.reportedPath b v else (0, 0)
      pathCodeOf p d.1 r.1 r.2

/-! ### Endings (R354, R390) -/

/-- What two endings of one request make: on one tick the higher rank of R150 is primary and the other is recorded;
on different ticks the first stands. [log DEDUCED 51] -/
def Ending.merge (old : Option Ending) (new : Ending) : Ending :=
  match old with
  | none => new
  | some o =>
    if o.tick ≠ new.tick ∨ o.cause = new.cause then o
    else if recallRank o.cause < recallRank new.cause then { new with secondary := o.status }
    else { o with secondary := new.status }

/-- The endings of Table 6.5 and Table 14.8, by cause. -/
def State.ending (s : State) (status detail cause : BitVec 4) : Ending :=
  { status := status, detail := detail, cause := cause, tick := s.clk.tick }
/-- ABORTED_RETRY with a detail. -/
def State.aborted (s : State) (detail : BitVec 4) : Ending := s.ending 1 detail recallAbort
/-- OVERDUE. -/
def State.overdue (s : State) : Ending := s.ending 2 0 recallOverdue
/-- CANCELLED by a reader reset. -/
def State.cancel (s : State) : Ending := s.ending 4 0 recallCancel
/-- CANCELLED by a bay reset. -/
def State.cancelBay (s : State) : Ending := s.ending 4 0 recallBayReset
/-- The ending that a recall's cause gives where no other was decided (Table 6.5). -/
def State.endingOf (s : State) (cause : BitVec 4) : Ending :=
  match cause.toNat with
  | 2 => s.overdue
  | 3 => s.cancel
  | 4 => s.ending 3 0 recallFault
  | 6 => s.cancelBay
  | _ => s.aborted 4
/-- The ending of a carrel fault (Table 6.4). -/
def State.faulted (s : State) (code : Byte) : Ending :=
  if code = faultSramUe ∨ code = faultStacksUe then s.ending 1 3 recallFault else s.ending 3 0 recallFault

/-- Change the running pass of a bay. -/
def State.modPass (s : State) (b : BayId) (g : Pass → Pass) : State :=
  s.modBay b (fun x => { x with pass := x.pass.map g })

/-! ### Control words (R203 to R205) -/

/-- The pass cycle count of a bay: every carrel holds the same (R192). -/
def State.passCycle (s : State) (e : BayEntry) : Nat := (s.carrel e.egress).regs.switch.w

/-- A word's fields merge with those of another issued at the same boundary (R205). -/
def PendingWord.merge (p q : PendingWord) : PendingWord :=
  { p with
    recallIn := recallMax p.recallIn q.recallIn,
    fraction := if p.fraction = 0 then q.fraction else if q.fraction = 0 then p.fraction
      else if q.fraction.toNat < p.fraction.toNat then q.fraction else p.fraction,
    op := if q.op = 0 then p.op else q.op }
/-- A word without fields. -/
def PendingWord.blank (p : PendingWord) : Bool := p.recallIn == 0 && p.fraction == 0 && p.op == 0
/-- A word joins those under way: it merges with the last where both were issued at one boundary, and else takes effect
after it (R204, R205). -/
def addWord (ws : List PendingWord) (w : PendingWord) : List PendingWord :=
  match ws with
  | [] => [w]
  | [p] => if p.running = w.running ∧ p.at_ = w.at_ then [p.merge w] else [p, w]
  | p :: r => p :: addWord r w
/-- Change the words under way; one without fields is none. -/
def Bay.mapWords (x : Bay) (g : PendingWord → PendingWord) : Bay :=
  { x with words := (x.words.map g).filter (fun p => !p.blank) }
/-- The next word to take effect. -/
def Bay.word (x : Bay) : PendingWord := x.words.headD {}
/-- A field of the next word has taken effect. -/
def Bay.usedWord (x : Bay) (g : PendingWord → PendingWord) : Bay :=
  match x.words with
  | [] => x
  | p :: r => { x with words := if (g p).blank then r else g p :: r }
/-- The recall and the operation of every word are given up with the pass they were issued for. -/
def Bay.dropWords (x : Bay) : Bay := x.mapWords (fun p => { p with recallIn := 0, op := 0 })

/-- The boundary at which a word issued now is issued: the bay's next beat boundary while its pass runs; else the words
of one tick are taken to share a boundary. [log DESIGN CHOICE 165] -/
def State.boundary (s : State) (b : BayId) : PendingWord :=
  match s.bayEntry b with
  | none => {}
  | some e =>
    if (s.bay b).phase = .running then { running := true, at_ := (s.passCycle e + 15) / 16 } else { at_ := s.ext }
/-- A control word is issued for a bay (R204). -/
def State.issueWord (s : State) (b : BayId) (w : PendingWord) : State :=
  let at_ := s.boundary b
  s.modBay b (fun x => { x with words := addWord x.words { w with running := at_.running, at_ := at_.at_ } })
/-- The fields of a control word (Table 8.5). -/
def wordFields (w : Word) : PendingWord :=
  { recallIn := w.extractLsb' 0 4, fraction := w.extractLsb' 4 5, op := w.extractLsb' 9 2 }
/-- A control word is taken: the copies of a word already under way bring nothing; another's fields are issued for the
bay. [log DEDUCED 184] -/
def State.takeWord (s : State) (b : BayId) (w : Word) : State :=
  let f := wordFields w
  let has (p : PendingWord) : Bool :=
    (f.recallIn == 0 || recallMax p.recallIn f.recallIn == p.recallIn) && (f.fraction == 0 || f.fraction == p.fraction) &&
      (f.op == 0 || f.op == p.op)
  if f.blank || (s.bay b).words.any has then s else s.issueWord b f

/-- A recall is issued at the bay's next beat boundary (R205). -/
def State.issueRecall (s : State) (b : BayId) (cause : BitVec 4) : State := s.issueWord b { recallIn := cause }

/-- Replays of a pass: st.REPLAYS summed over the bay's carrels, in the carrels or in their shelf images (R158); none of a
pass whose START has not taken effect. -/
def State.passReplays (s : State) (b : BayId) (p : Pass) (shelved : Bool) : Nat :=
  if !p.started then 0
  else ((s.bayCarrels b).map (fun c =>
    let k := s.carrel c
    let r := if shelved then (k.save.map (fun v => v.regs)).getD {} else k.regs
    r.st.replays.toNat)).sum

/-- The verdict hash field of an ending (Table 1.1): after a carrel fault, that of a payload whose check had completed
before the fault. [log DEDUCED 56] -/
def Pass.hashFor (p : Pass) (e : Ending) : List Byte :=
  if e.status = 1 ∨ e.status = 5 ∨ (e.status = 3 ∧ p.faultFirst) then zeroHash
  else match p.payload with
    | none => zeroHash
    | some bs => verdictHash bs

/-- The pass of a request in a duplex partner bay, by its accession. -/
def State.partnerPass (s : State) (b : BayId) (acc : DWord) : Option Pass :=
  match s.partner b with
  | none => none
  | some c => (s.bay c).allPasses.find? (fun q => q.acc == acc)
/-- A pass of a duplex request ended, or is ending, without a payload. -/
def State.unpaired (s : State) (b : BayId) (p : Pass) : Bool :=
  s.isFirst b && (p.payload.isNone || p.lone ||
    (match s.partnerPass b p.acc with
     | none => false
     | some q => q.payload.isNone))
/-- A SECOND bay's pass that ends without a payload is noted in its FIRST's. -/
def State.noteLone (s : State) (b : BayId) (p : Pass) : State :=
  match s.partner b with
  | none => s
  | some c =>
    let mark (q : Pass) : Pass := if q.acc = p.acc then { q with lone := true } else q
    if s.isSecond b && p.payload.isNone then
      s.modBay c (fun x => { x with pass := x.pass.map mark, shelved := x.shelved.map mark, next := x.next.map mark })
    else s

/-- The request of a pass ends: its path is fixed, its ledger record and verdict record are written (R386). The
pass of a SECOND bay writes nothing (R424). -/
def State.endRequest (s : State) (b : BayId) (p : Pass) (e : Ending) (shelved : Bool) : State :=
  if p.recorded || s.isSecond b then s
  else
    let code := s.passPath b p
    let s := s.modBay b (fun x =>
      { x with bmDelta := if code = 2 then satInc x.bmDelta else x.bmDelta,
               bmAtT := if code = 1 then satInc x.bmAtT else x.bmAtT,
               bmConc := if code = 3 then satInc x.bmConc else x.bmConc,
               bmPathBad := x.bmPathBad || code == 5 })
    let s := match (s.bay b).volume p.req.vslot with
      | none => s
      | some v => if code = 5 then s.modBay b (fun x => x.dropTag v p.req) else s
    let s := if s.unpaired b p then
        { s with int := { s.int with unpaired := satInc s.int.unpaired } }
      else s
    let (vol, cod) := s.requestHashes p.req
    s.finish
      { req := p.req, acc := p.acc, ticket := p.epoch ++ p.req.reader, ending := e, vhash := p.hashFor e,
        payload := if e.status = 0 then p.payload else none, path := code, impure := p.impure,
        replays := s.passReplays b p shelved, recalls := p.recalls, tAdmit := p.admitted, tEnd := s.since p.admitted,
        tWait := (p.admitted - p.req.capture).toNat, volume := vol, codex := cod, duplex := s.isFirst b } 2

/-- Carrels of a bay are left by a pass: registers and accesses of the pass are discarded; SRAM stands. -/
def Carrel.leave (k : Carrel) : Carrel :=
  { k with run := .idle, long := none, ir := none, loads := [], stores := [], reserved := none, beatReplays := 0,
           exitDone := false, bay := none, cellWait := false, repQuiesced := false, repExited := false, repFault := false, repOverrun := false,
           repPlane := false, allowNext := none,
           regs := { k.regs with pg := {}, switch := {},
                                 rc := { k.regs.rc with pending := false, pendingCause := 0 } } }

/-- An urgent pass that completes, or that a reader reset cancels, counts toward row 2 of Table 12.5 while a pass is
shelved (R284, R359). -/
def Bay.countUrgent (x : Bay) (p : Pass) : Bay :=
  if p.req.cls = 0 ∧ x.shelved.isSome then { x with urgentDone := x.urgentDone + 1 } else x

/-- The bay's carrels are free: the pass that waits for them takes them; only after a refresh may its image stand already
(R280, R287). -/
def Bay.take (x : Bay) (refreshed : Bool) : Bay :=
  match x.next with
  | [] => { x with pass := none, phase := .idle }
  | p :: rest => { x with pass := some { p with copied := refreshed && p.copied }, next := rest, phase := .setup }

/-- The running pass of a bay ends by a terminating recall: its request ends, its state is discarded, and no refresh
runs (Table 6.5, R280). -/
def State.endPass (s : State) (b : BayId) : State :=
  match (s.bay b).pass with
  | none => s
  | some p =>
    let e := p.ending.getD (s.aborted 4)
    let s := (s.endRequest b p e false).noteLone b p
    let s := s.mapBay b (fun _ k => k.leave)
    let s := if p.inputDone || s.isSecond b then s else s.freeSlot p.req
    s.modBay b (fun x =>
      { ((if e.cause = recallCancel then x.countUrgent p else x).take false).dropWords with warm := false, waves := [] })

/-- The running pass of a bay ends by a recall of a cause: by the ending decided for it, else by the cause's own
(Table 6.5). -/
def State.endPassBy (s : State) (b : BayId) (cause : BitVec 4) : State :=
  (s.modPass b (fun p => { p with ending := some (p.ending.getD (s.endingOf cause)) })).endPass b

/-- The shelved pass of a bay is discarded and ends (R160, R291, R357). [log DEDUCED 66] -/
def State.endShelved (s : State) (b : BayId) (e : Ending) : State :=
  match (s.bay b).shelved with
  | none => s
  | some p =>
    let s := (s.endRequest b p (Ending.merge p.ending e) true).noteLone b p
    let s := s.mapBay b (fun _ k => { k with save := none })
    s.modBay b (fun x =>
      if x.phase = .shelvingIn then
        { x with shelved := none, phase := if x.writing.isSome then .refreshing else .idle, warm := false }
      else { x with shelved := none })

/-- A pass that waits for the bay's carrels ends before it was set up. -/
def State.endNext (s : State) (b : BayId) (p : Pass) (e : Ending) : State :=
  let s := (s.endRequest b p e false).noteLone b p
  (if s.isSecond b then s else s.freeSlot p.req).modBay b (fun x => { x with next := x.next.erase p })

/-- The running pass of one bay is to end: its ending is recorded and, while its carrels run, a recall goes out. A
pass whose request was already released keeps its status (R358). [log DEDUCED 55] -/
def State.stopPassOne (s : State) (b : BayId) (e : Ending) : State :=
  match (s.bay b).pass with
  | none => s
  | some p =>
    let s := s.modPass b (fun p =>
      { p with stopped := recallMax p.stopped e.cause,
               ending := if p.released then p.ending else some (Ending.merge p.ending e) })
    match (s.bay b).phase with
    | .refreshing | .idle => s
    | .setup =>
      if p.startIssued then s.issueRecall b e.cause else s.endPass b
    | _ => s.issueRecall b e.cause

/-- The cause that recalls the partner of a duplex pass (R424). -/
def partnerCause (c : BitVec 4) : BitVec 4 := if c = recallBayReset then recallCancel else c

/-- The running pass of a bay is to end, and with it its duplex partner's (R422, R424). -/
def State.stopPass (s : State) (b : BayId) (e : Ending) : State :=
  let s := s.stopPassOne b e
  match s.partner b with
  | none => s
  | some c => s.stopPassOne c { e with cause := partnerCause e.cause }

/-- Every pass of a bay that fits a test is to end: running, shelved, and waiting for the carrels. -/
def State.stopAll (s : State) (b : BayId) (test : Pass → Bool) (e : Ending) : State :=
  let x := s.bay b
  let s := x.next.foldl (fun t p => if test p then t.endNext b p e else t) s
  let s := match x.shelved with
    | none => s
    | some p => if test p then s.endShelved b e else s
  match x.pass with
  | none => s
  | some p => if test p then s.stopPassOne b e else s

/-! ### Release and completion (R209, R282, R303 to R305) -/

/-- The bytes of each carrel's bookmark part as they stand, the status block left out (R303).
[log DESIGN CHOICE 47, 61] -/
def State.partsNow (s : State) (b : BayId) (e : BayEntry) (v : Volume) : List (List Byte) :=
  let ingress := carrelAt (e.x0 + v.inDx) (e.y0 + v.inDy)
  (s.bayCarrels b).map (fun c =>
    let bs := (s.carrel c).sram.read Memory.blank (bmSramOf v) (bmBytesOf v)
    if c = ingress then List.replicate 16 0 ++ bs.drop 16 else bs)

/-- Write-back of a pass that completes (R303, R304): the way of its tag, or the way it takes, is not newer. Parts that
SECDED cannot read are not written, and the way stays without a valid tag.
[log DEDUCED 58, 166; DESIGN CHOICE 60] -/
def State.writeBack (s : State) (b : BayId) (p : Pass) : State :=
  let x := s.bay b
  match s.bayEntry b, x.volume p.req.vslot with
  | some e, some v =>
    let m : Bookmark :=
      { vslot := p.req.vslot, volume := bytesAt v.hash 0 16, reader := p.req.reader, key := p.req.key,
        archive := false, set := 0, written := p.acc, recent := p.acc, parts := s.partsNow b e v }
    match x.findTag v p.req with
    | some o =>
      if p.acc.toNat < o.written.toNat then s
      else ((s.modBay b (fun y => y.dropTag v p.req)).place b m).1
    | none =>
      let set := p.req.key.toNat % x.sets
      let newer := decide (8 ≤ x.ways false set) &&
        (match x.victim false set with
         | none => false
         | some o => decide (p.acc.toNat < o.written.toNat))
      if newer then s else (s.place b m).1
  | _, _ => s

/-- A completed pass writes its bookmark back: WRITE, a payload that passed its check and, in a FIRST bay, matched its
partner, and a consistent report (R303, R305). -/
def State.writesBack (s : State) (b : BayId) (p : Pass) : Bool :=
  p.writeBm && p.payload.isSome && (!s.isFirst b || p.released) && s.passPath b p != 5

/-- The write-back under way ends: what SECDED found in the words it read is counted. -/
def State.endWriteBack (s : State) (b : BayId) (ecc : List (CarrelId × Ecc)) : State :=
  match (s.bay b).writing with
  | none => s
  | some p =>
    let t := s.modBay b (fun x => { x with writing := none })
    let t := ecc.foldl (fun t q => t.countSram q.1.folio q.2) t
    if ecc.any (fun q => q.2.bad) then t else t.writeBack b p
/-- A dead or alert freeze during a write-back leaves its tag without a valid bookmark (R308). -/
def State.dropWriteBacks (s : State) : State :=
  s.bayIds.foldl (fun t b =>
    match (t.bay b).writing with
    | none => t
    | some p =>
      t.modBay b (fun x =>
        { (match x.volume p.req.vslot with
           | none => x
           | some v => x.dropTag v p.req) with writing := none })) s

/-- Elapsed ticks of a request have reached its pass loan or its request loan (R11, R159, R353). -/
def State.loanReached (s : State) (p : Pass) : Bool :=
  decide (p.passLoan.toNat ≤ s.since p.admitted) || decide (p.reqLoan.toNat ≤ s.since p.admitted)

/-- Nothing but an overrun after the payload had reached egress was decided against a pass (R94). -/
def Pass.releasable (p : Pass) : Bool :=
  match p.ending with
  | none => true
  | some e => e.status == 1 && e.detail == 1

/-- A request whose payload is released ends OK, and a takeover or a duplex comparison no longer holds it; at its loan
period it ends OVERDUE, and nothing is released (R11, R159). A payload formed before an overrun is released as usual
(R94). [log DEDUCED 55, 103] -/
def State.releasePass (s : State) (b : BayId) : State :=
  match (s.bay b).pass with
  | none => s
  | some p =>
    if p.gated && p.payload.isSome && !p.report && !p.late && p.releasable && !p.recorded && !s.cur.taking then
      if s.loanReached p then s.stopPass b s.overdue
      else
        let e := s.ending 0 0 0
        (s.endRequest b p e false).modPass b (fun q => { q with released := true, recorded := true })
    else s

/-- Every carrel has exited and egress has released or withheld the payload (R282). -/
def State.passDone (s : State) (b : BayId) (p : Pass) : Bool :=
  p.gated && (p.released || p.recorded || p.ending.isSome) && decide ((s.bayCarrels b).length ≤ p.exited.length)

/-- PATH and COUNT are read at completion: an inconsistent report of a pass whose record stands already invalidates its
bookmark (R305). -/
def State.judgePath (s : State) (b : BayId) (p : Pass) : State :=
  if s.passPath b p = 5 then
    s.modBay b (fun x =>
      { (match x.volume p.req.vslot with
         | none => x
         | some v => x.dropTag v p.req) with bmPathBad := true })
  else s

/-- A complete pass: its request ends where it has not, the bookmark's write-back begins, and the bay refreshes. [log DESIGN CHOICE 60] -/
def State.checkComplete (s : State) (b : BayId) : State :=
  let x := s.bay b
  match x.pass with
  | none => s
  | some p =>
    if x.phase = .running ∧ s.passDone b p then
      let s := (s.endRequest b p (p.ending.getD (s.aborted 2)) false).noteLone b p
      let s := if s.isSecond b then s else s.judgePath b p
      let s := s.mapBay b (fun _ k => k.leave)
      s.modBay b (fun y =>
        { (y.countUrgent p).dropWords with
          pass := none, phase := .refreshing, passes := satInc y.passes, waves := [],
          writing := if s.writesBack b p then some p else none })
    else s

/-- What a takeover held is released (R118). [log DEDUCED 103] -/
def State.releaseHeld (s : State) : State :=
  s.bayIds.foldl (fun t b => if (t.partner b).isSome then t else (t.releasePass b).checkComplete b) s

/-! ### Admission (R284 to R287) -/

/-- A codex load holds admission in a bay (R266, R267). A header whose BAY is above 4,095 names no bay. -/
def State.loadHolds (s : State) (b : BayId) : Bool :=
  match s.cdx.load with
  | none => false
  | some l =>
    match l.kind with
    | .hostBay => l.headerRead && l.bay == b && decide (fieldAt l.buf 10 2 < 4096)
    | _ => true

/-- CLK.WAFER_STATE.STATE (Table 3.9). -/
def State.waferState (s : State) : Nat :=
  if !s.isReady then 5
  else match s.act with
    | .none => 0
    | .failover .. => 1
    | .dead _ | .deadResume _ => 2
    | .alert | .alertResume _ => 3
    | .freqChange _ => 4

/-- The epoch's start checkpoint has committed, or none is written (R400, R403). -/
def Ledger.admits (l : Ledger) : Bool := l.plain || l.startCp.isSome

/-- Admission of new requests is held in a bay (R285, R400, R382), also while a meter awaits its calibration (R83) and
where a folio of the bay has been withdrawn. [log DEDUCED 49, 163] -/
def State.held (s : State) (b : BayId) : Bool :=
  let x := s.bay b
  x.pausing || x.paused || s.loadHolds b || s.pwr.capHold || s.pwr.calibrating ||
    (s.bayFolios b).any (fun f => !s.present f) || !s.led.hasRoom 2 || s.waferState != 0 ||
    !s.led.admits || s.mbx.running == some .waferReset || x.waveHold || !x.partsNotReady.isEmpty || s.bayRegs.resetting == some b || !s.crossingsOk b

/-- Whether one request comes before another as a candidate of one reader and class (R284, R326).
[log DESIGN CHOICE 9] -/
def Request.before (q o : Request) : Bool :=
  if q.capture ≠ o.capture then decide (q.capture.toNat < o.capture.toNat)
  else if q.drop.isSome ≠ o.drop.isSome then q.drop.isSome
  else decide (q.order < o.order)

/-- The candidates of a bay in one class: the earliest request of each reader below its MAX_OUT (R284). -/
def State.candidates (s : State) (b : BayId) (cls : BitVec 2) : List Request :=
  let all := s.cands.filter (fun q => q.bayRaw == b.setWidth 16 && q.cls == cls)
  all.filter (fun q =>
    decide (s.outstanding q.reader cls < s.maxOut q.reader cls) &&
      !(all.any (fun o => o.reader == q.reader && o.before q)))

/-- The least of a list under a strict order. -/
def leastBy {α : Type} (lt : α → α → Bool) (xs : List α) : Option α :=
  xs.foldl (fun best x =>
    match best with
    | none => some x
    | some o => if lt x o then some x else some o) none

/-- The urgent candidate with the lowest capture tick, then the lowest reader number (row 3). -/
def State.urgentPick (s : State) (b : BayId) : Option Request :=
  leastBy (fun q o => decide (q.capture.toNat < o.capture.toNat) ||
    (q.capture == o.capture && decide (q.reader.toNat < o.reader.toNat))) (s.candidates b 0)

/-- The weighted choice among readers (R286): the request chosen and the counters after it. [log DEDUCED 48] -/
def State.weighted (s : State) (ctr : Tbl Int) (qs : List Request) (cls : BitVec 2) : Option (Request × Tbl Int) :=
  let up : Tbl Int := qs.foldl (fun (t : Tbl Int) q =>
    Tbl.set (0 : Int) t q.reader.toNat (Tbl.get (0 : Int) t q.reader.toNat + (s.weight q.reader cls : Int))) ctr
  let sum : Nat := (qs.map (fun q => s.weight q.reader cls)).sum
  match leastBy (fun q o =>
      decide (Tbl.get 0 up o.reader.toNat < Tbl.get 0 up q.reader.toNat) ||
        (Tbl.get 0 up o.reader.toNat == Tbl.get 0 up q.reader.toNat && decide (q.reader.toNat < o.reader.toNat))) qs with
  | none => none
  | some q => some (q, Tbl.set 0 up q.reader.toNat (Tbl.get 0 up q.reader.toNat - sum))

/-- Rows 5 to 7 of Table 14.4. [log DEDUCED 70] -/
def State.refusal57 (s : State) (b : BayId) (q : Request) : Option (BitVec 4) :=
  match (s.bay b).volume q.vslot with
  | none => some 5
  | some v =>
    if q.inLen ≠ v.inLen then some 4
    else if q.outInline && decide (16 < v.len) then some 3
    else none

/-- The pass of a request as it is admitted (R280, R299, R350). -/
def State.newPass (s : State) (b : BayId) (q : Request) (acc : DWord) (preempting : Bool) : Pass :=
  let x := s.bay b
  let (pl, rl) := s.loans b q.cls
  let base : Pass :=
    { req := q, acc := acc, epoch := (s.reader q.reader).epoch, admitted := s.clk.tick, passLoan := pl, reqLoan := rl,
      copied := (x.warm || x.phase == .refreshing) && x.lastSlot == q.vslot && !preempting && !x.loaded }
  match x.volume q.vslot with
  | none => base
  | some v =>
    let noBm := q.key == 0 || v.delta.isNone || s.isSecond b
    let conc := !noBm && x.allPasses.any (fun p =>
      !p.recorded && p.req.vslot == q.vslot && p.req.reader == q.reader && p.req.key == q.key)
    { base with noBm := noBm, concurrent := conc, looked := noBm || conc, impure := !v.pure_ }

/-- Give a bay its pass: at once where its carrels are free, else it waits for them. [log DEDUCED 57] -/
def State.givePass (s : State) (b : BayId) (p : Pass) : State :=
  s.modBay b (fun x =>
    if x.phase = .idle ∧ x.next = [] ∧ !x.restoreOwed then
      { x with pass := some p, phase := .setup, warm := false, loaded := false }
    else { x with next := x.next ++ [p], loaded := false })

/-- Admit a request: an accession number, two entries of staging, a pass in the bay and in its SECOND (R286, R393,
R422). -/
def State.admitRequest (s : State) (b : BayId) (q : Request) (preempting : Bool) : State :=
  let (acc, t) := s.assign
  let t := (({ t with cands := t.cands.erase q } : State).reserveStaging 2 0).ledgerWatch
  let t := t.givePass b (s.newPass b q acc preempting)
  match s.partner b with
  | none => t
  | some c => t.givePass c (s.newPass c q acc preempting)

/-- The running pass may be preempted, candidates apart (R287). A pass whose START has not been issued is not yet
recalled. [log DEDUCED 65] -/
def State.preemptible (s : State) (b : BayId) : Bool :=
  let x := s.bay b
  match x.pass with
  | none => false
  | some p =>
    p.req.cls != 0 && x.shelved.isNone && x.next.isEmpty && !s.held b && p.ending.isNone && p.stopped == 0 &&
      decide (p.exited.length < (s.bayCarrels b).length) && !s.isSecond b &&
      (match x.phase with
       | .setup => p.startIssued
       | .running | .resumeIssued => true
       | _ => false)

/-- Issue PREEMPT to a bay. -/
def State.preempt (s : State) (b : BayId) : State :=
  (s.issueRecall b recallPreempt).modBay b (fun x => { x with preempts := satInc x.preempts })

/-- Restore the shelved pass: shelving in begins (Table 12.5 row 2). [log DEDUCED 57] -/
def State.restore (s : State) (b : BayId) : State :=
  s.modBay b (fun x =>
    if (x.phase = .idle ∨ x.phase = .refreshing) ∧ x.shelved.isSome then
      { x with phase := .shelvingIn, restoreOwed := false, warm := false }
    else { x with restoreOwed := true })

/-- Row 4 or row 5 of Table 12.5: the candidate, the class's counters after it, and whether it is bulk. -/
def State.stdPick (s : State) (b : BayId) : Option (Request × Tbl Int × Bool) :=
  let x := s.bay b
  let std := s.candidates b 1
  let bulk := s.candidates b 2
  if !bulk.isEmpty && (std.isEmpty || decide (7 ≤ x.stdRun)) then
    (s.weighted x.ctrBulk bulk 2).map (fun r => (r.1, r.2, true))
  else (s.weighted x.ctrStd std 1).map (fun r => (r.1, r.2, false))

/-- An admission point: no pass runs, and the bay's carrels are free, or it refreshes and holds a shelved pass (R284,
Case 12.1). -/
def Bay.admissionPoint (x : Bay) : Bool :=
  x.pass.isNone && x.next.isEmpty && (x.phase == .idle || (x.phase == .refreshing && x.shelved.isSome))

/-- One decision at an admission point of a bay (Table 12.5), or a preemption; the Bool says that a request was
refused there and the decision is to be made again. [log DEDUCED 48, 49] -/
def State.decideBay (s : State) (b : BayId) : State × Bool :=
  let x := s.bay b
  if !s.fabricRuns then (s, false)
  else if x.admissionPoint then
    if s.held b && x.shelved.isNone then (s, false)
    else if x.shelved.isSome && ((s.candidates b 0).isEmpty || s.held b || decide (4 ≤ x.urgentDone)) then
      ((s.pair b).foldl (fun t c => t.restore c) s, false)
    else match s.urgentPick b with
      | some q =>
        match s.refusal57 b q with
        | some d => (({ s with cands := s.cands.erase q } : State).refuse q d, true)
        | none => (s.admitRequest b q false, false)
      | none =>
        match s.stdPick b with
        | none => (s, false)
        | some (q, ctr, isBulk) =>
          match s.refusal57 b q with
          | some d => (({ s with cands := s.cands.erase q } : State).refuse q d, true)
          | none =>
            ((s.admitRequest b q false).modBay b (fun y =>
              if isBulk then { y with ctrBulk := ctr, stdRun := 0 }
              else { y with ctrStd := ctr, stdRun := y.stdRun + 1 }), false)
  else if s.preemptible b then
    match s.urgentPick b with
    | none => (s, false)
    | some q =>
      match s.refusal57 b q with
      | some d => (({ s with cands := s.cands.erase q } : State).refuse q d, true)
      | none => ((s.pair b).foldl (fun t c => t.preempt c) (s.admitRequest b q true), false)
  else (s, false)

/-- A SECOND bay follows its FIRST (R422): it restores, or takes the pass that waits, once its carrels are free.
[log DEDUCED 57] -/
def State.followBay (s : State) (b : BayId) : State :=
  s.modBay b (fun x =>
    if x.phase ≠ .idle ∨ x.pass.isSome then x
    else if x.restoreOwed ∧ x.shelved.isSome then { x with phase := .shelvingIn, restoreOwed := false, warm := false }
    else x.take false)

/-- Decisions of a bay until it stands; `n` bounds the requests it may refuse. -/
def State.decideN (s : State) (b : BayId) : Nat → State
  | 0 => s
  | n + 1 =>
    match s.decideBay b with
    | (t, true) => t.decideN b n
    | (t, false) => t

/-- A volume's parts are written into the volume region of each carrel of a bay, and the rest of the region is cleared, so
that it is a function of the volume alone (R17, R272). [log DESIGN CHOICE 167] -/
def State.writeRegion (s : State) (b : BayId) (v : Volume) : State :=
  ((s.bayCarrels b).zip v.parts).foldl (fun t cp =>
    t.modCarrel cp.1 (fun k =>
      { k with stackMem := k.stackMem.paste v.region v.regionLen (Memory.ofBytes Memory.blank (cp.2.take v.partLen)) })) s

/-- Every loaded VSLOT of a bay is rewritten from the archive library; without one the VSLOTs are left empty (R276). -/
def State.rewriteSlots (s : State) (b : BayId) : State :=
  if s.archiveWorks then
    let s := (s.bay b).vslots.foldl (fun t e =>
      match e.2 with
      | none => t
      | some v => t.writeRegion b v) s
    s.modBay b (fun x => { x with warm := false })
  else s.modBay b (fun x => { x with vslots := [], warm := false })

/-- No pass runs, is shelved or waits in a bay. -/
def Bay.free (x : Bay) : Bool := x.pass.isNone && x.shelved.isNone && x.next.isEmpty
/-- Post a BAY command's result (Table 12.7). -/
def State.bayPost (s : State) (r : CmdResult) (check : Nat) : State :=
  { s with bayRegs := { s.bayRegs with result := r, check := BitVec.ofNat 8 check, seq := s.bayRegs.seq + 1 } }

/-- A pausing bay, and its partner, with no pass running or shelved are paused, and the PAUSE posts DONE (R274,
R290). -/
def State.settlePause (s : State) (b : BayId) : State :=
  if (s.bay b).pausing && (s.pair b).all (fun c => (s.bay c).free) then
    let t := (s.pair b).foldl (fun t c => t.modBay c (fun y => { y with pausing := false, paused := true })) s
    if t.bayRegs.pausing = some b then
      ({ t with bayRegs := { t.bayRegs with pausing := none } } : State).bayPost .done 0
    else t
  else s

/-- Step 2 of a bay reset: the running pass has ended, and a shelved pass is discarded and ends CANCELLED (R291). -/
def State.resetShelved (s : State) (b : BayId) : State :=
  if s.bayRegs.resetting == some b && (s.pair b).all (fun c => (s.bay c).pass.isNone) then
    (s.pair b).foldl (fun t c => t.endShelved c t.cancelBay) s
  else s

/-- Steps 3 and 4 of a bay reset, once no pass runs or is shelved: counters zero, VSLOTs rewritten, and RESET posts
DONE (R274, R276, R291). -/
def State.settleReset (s : State) (b : BayId) : State :=
  if s.bayRegs.resetting == some b && (s.pair b).all (fun c => (s.bay c).free && (s.bay c).phase == .idle) then
    let t := (s.pair b).foldl (fun t c =>
      (t.modBay c (fun y =>
        { y with ctrStd := [], ctrBulk := [], stdRun := 0, urgentDone := 0, bookmarks := [], writing := none,
                 resets := satInc y.resets })).rewriteSlots c) s
    ({ t with bayRegs := { t.bayRegs with resetting := none } } : State).bayPost .done 0
  else s

/-! ### Alternate sets (R382) -/

/-- The codex in force carries a set for a bay. -/
def State.hasSet (s : State) (b : BayId) (set : Nat) : Bool :=
  match s.cdx.codex with
  | none => false
  | some x => x.crossings.any (fun e => e.bay == b && e.set == set) || x.programs.any (fun e => e.bay == b && e.set == set)

/-- What a bay that an abort wave holds waits for at its admission point: the set the waves chose is adopted; set 0
waits until the crossings of the set in force pass R373 again; a set the codex lacks, or waves that named different
sets, hold it. [log DEDUCED 63, 142] -/
def State.adoptWave (s : State) (b : BayId) : State :=
  let x := s.bay b
  match x.waveSet with
  | none => s
  | some n =>
    if x.pass.isSome || x.shelved.isSome || !x.next.isEmpty || x.phase != .idle then s
    else if n = 0 then
      if s.crossingsOk b then s.modBay b (fun y => { y with waveSet := none, waveHold := false }) else s
    else if s.hasSet b n then
      let t := s.modBay b (fun y => { y with altSet := n, waveSet := none, waveHold := false, warm := false })
      { t with lnk := { t.lnk with adoptions := satInc t.lnk.adoptions } }
    else s

/-! ### Reading requests (R328) -/

/-- Input bytes that stand in a port's input buffer: inputs read or being read for requests of its rings and not
yet written into a bay (R328). -/
def State.bufferUse (s : State) (p : PortId) : Nat :=
  let ofPort (q : Request) : Bool := readerPort q.reader == p && q.drop.isNone
  ((s.cands.filter ofPort).map (fun q => q.inLen)).sum +
    ((s.openPasses.filter (fun x => ofPort x.req && !x.inputDone)).map (fun x => x.req.inLen)).sum +
    ((s.portReaders p).map (fun r =>
      match (s.reader r).reading with
      | some (.input q) => q.inLen
      | _ => 0)).sum

/-- The port controller starts the next read of a reader, where it may: the descriptor at the head of what was
announced, or the input that waited for room. -/
def State.startRead (s : State) (r : ReaderId) : State :=
  let x := s.reader r
  match x.reading with
  | some (.room q) =>
    if s.bufferUse (readerPort r) + q.inLen ≤ 2 ^ 20 then
      s.modReader r (fun y => { y with reading := some (.input q) })
    else s
  | some _ => s
  | none =>
    match x.announced with
    | [] => s
    | (_, capture, order) :: _ =>
      if x.reqEn && s.canReserve r && !s.frozen && s.isReady && s.mbx.running != some .waferReset then
        s.modReader r (fun y => { y with reading := some (.descriptor capture order) })
      else s

/-! ### What follows a change -/

/-- A book-drop request that waited for a verdict entry becomes a candidate or is refused; `n` bounds them.
[log DEDUCED 53] -/
def State.takeDrops (s : State) (r : ReaderId) : Nat → State
  | 0 => s
  | n + 1 =>
    match (s.reader r).dropWait with
    | [] => s
    | (q, d) :: rest =>
      if s.canReserve r then
        let t := s.modReader r (fun x => { x with dropWait := rest })
        (match d with
         | none => { t with cands := t.cands ++ [q] }
         | some d => t.refuse q d).takeDrops r n
      else s

/-- Everything a change lets happen at once: refusals that waited, reads, decisions of every bay, pauses, held
records, the drain ring. -/
def State.settle (s : State) : State :=
  let s := s.runWaits s.waits.length
  let s := s.readerIds.foldl (fun t r => (t.deliverHeld r).drainShelf r) s
  let s := s.readerIds.foldl (fun t r => t.takeDrops r (t.reader r).dropWait.length) s
  let s := s.bayIds.foldl (fun t b => t.adoptWave b) s
  let s := s.bayIds.foldl (fun t b => if t.isSecond b then t else (t.resetShelved b).settleReset b) s
  let s := s.bayIds.foldl (fun t b =>
    if t.isSecond b then t.followBay b
    else (t.decideN b (t.cands.length + 1)).settlePause b) s
  let s := s.readerIds.foldl (fun t r => t.startRead r) s
  s.ledgerWatch.drain

end Sys2Proof.Machine
end

