-- ==== Sys2Proof/Machine/CaptureOps.lean ====
section
/-! DEFINITION. Machine/CaptureOps.lean: descriptors and book-drop slots as requests, and how they are captured (R322,
R325 to R332). -/

namespace Sys2Proof.Machine

/-- Bytes 0 to 31 of Table 14.3 as a request; `rsvBad` says that a reserved bit is set. -/
def parseHeader (r : ReaderId) (bs : List Byte) (capture : DWord) (order : Nat) : Request :=
  let f := fieldAt bs 19 1
  { reader := r, cookie := BitVec.ofNat 64 (fieldAt bs 0 8), key := BitVec.ofNat 64 (fieldAt bs 8 8),
    bayRaw := BitVec.ofNat 16 (fieldAt bs 16 2), vslot := BitVec.ofNat 8 (fieldAt bs 18 1),
    cls := BitVec.ofNat 2 (natBits f 0 2), inInline := natBits f 2 1 == 1, outInline := natBits f 3 1 == 1,
    rsvBad := natBits f 4 4 != 0 || fieldAt bs 22 2 != 0 || decide (4096 ≤ fieldAt bs 16 2),
    inLen := fieldAt bs 20 2, inAddr := fieldAt bs 24 4, outAddr := fieldAt bs 28 4, capture := capture,
    order := order }

/-- A descriptor (Table 14.3); with IN_INLINE its input stands in bytes 32 to 63. [log DEDUCED 71] -/
def parseDescriptor (r : ReaderId) (bs : List Byte) (capture : DWord) (order : Nat) : Request :=
  let q := parseHeader r bs capture order
  if q.inInline then
    { q with input := bytesAt bs 32 (min q.inLen 32),
             rsvBad := q.rsvBad || !allZero ((bs.drop 32).drop (min q.inLen 32)) }
  else { q with rsvBad := q.rsvBad || !allZero (bs.drop 32) }

/-- A book-drop slot as a request (Table 14.5). [log DESIGN CHOICE 9] -/
def parseDrop (r : ReaderId) (slot : Fin 8) (bs : List Byte) (capture : DWord) (order : Nat) : Request :=
  let q := parseHeader r (bytesAt bs 0 32) capture order
  { q with drop := some slot, input := bytesAt bs 32 (min q.inLen 472) }

/-- Row 3 of Table 14.4, and R332's limit on a book-drop input. OUT_ADDR + L is judged where the VSLOT holds a
volume. [log DEDUCED 70] -/
def State.badDescriptor (s : State) (q : Request) : Bool :=
  q.rsvBad || q.cls == 3 || decide (q.inLen < 4 ∨ 4096 < q.inLen ∨ q.inLen % 4 ≠ 0) ||
    (q.inInline && (decide (32 < q.inLen) || q.inAddr != 0)) || decide (q.inAddr % 16 ≠ 0) ||
    decide (q.outAddr % 64 ≠ 0) || (q.outInline && q.outAddr != 0) ||
    (q.drop.isSome && (q.inInline || q.inAddr != 0 || decide (472 < q.inLen))) ||
    (!q.outInline &&
      (match (s.bay (q.bayRaw.setWidth 12)).volume q.vslot with
       | none => false
       | some v => decide (2 ^ 32 < q.outAddr + v.len)))

/-- Rows 2 to 4 of Table 14.4. [log DEDUCED 70] -/
def State.refusal24 (s : State) (q : Request) : Option (BitVec 4) :=
  if s.cdx.codex.isNone then some 1
  else if s.badDescriptor q then some 3
  else if !s.bound q.reader (q.bayRaw.setWidth 12) q.cls then some 2
  else none

/-- A request whose input has been read becomes a candidate or is refused. -/
def State.candidate (s : State) (q : Request) : State :=
  match s.refusal24 q with
  | none => { s with cands := s.cands ++ [q] }
  | some d => s.refuse q d

/-- Count captures on a port. [log DEDUCED 78] -/
def State.countCaptures (s : State) (p : PortId) (n : Nat) : State :=
  let t := s.modPort p (fun x => { x with captures := satAdd x.captures n })
  { t with arrivals := t.arrivals + n }

/-- A write dropped and counted in RDR.COUNTS.BAD_WRITES. -/
def State.badRdrWrite (s : State) (r : ReaderId) : State :=
  s.modReader r (fun x => { x with badWrites := satInc x.badWrites })

/-- A doorbell is captured (R322, R325, R326): the descriptors it announces share the capture tick. -/
def State.captureDoorbell (s : State) (r : ReaderId) (tail : BitVec 12) : State :=
  let x := s.reader r
  let g := x.reqRing
  let n := g.entries
  let ahead (t : BitVec 12) : Nat := (t.toNat + n - g.head.toNat) % n
  if !x.reqEn || decide (n ≤ tail.toNat) || decide (ahead tail < ahead g.tail) then s.badRdrWrite r
  else
    let k := ahead tail - ahead g.tail
    let new := (List.range k).map (fun i =>
      (BitVec.ofNat 12 ((g.tail.toNat + i + 1) % n), s.clk.tick, s.arrivals + i))
    (s.modReader r (fun y =>
      { y with reqRing := { y.reqRing with tail := tail }, announced := y.announced ++ new })).countCaptures
        (readerPort r) k

/-- A free slot is captured as a request (R331, R332). -/
def State.captureSlot (s : State) (r : ReaderId) (slot : Fin 8) : State :=
  let d := (s.reader r).drop[slot]
  let q := parseDrop r slot (d.bytes.read Memory.blank 0 504) s.clk.tick s.arrivals
  let t := s.modReader r (fun x =>
    { x with drop := x.drop.set slot { x.drop[slot] with captured := true },
             dropWait := x.dropWait ++ [(q, s.refusal24 q)] })
  t.countCaptures (readerPort r) 1

/-- A reader's captures are taken: it is present, and no reset of it is in progress (Table 15.1, R357).
[log DEDUCED 67] -/
def State.mayCapture (s : State) (r : ReaderId) : Bool := s.isPresent r && !(s.reader r).resetting
/-- A doorbell is performed: captured, dropped, or dropped and counted (R322, R325, Table 15.1). -/
def State.doorbell (s : State) (r : ReaderId) (tail : BitVec 12) : State :=
  if !(s.reader r).reqEn then s.badRdrWrite r
  else if s.mayCapture r then s.captureDoorbell r tail
  else s
/-- A COMMIT piece with GO = 0xA5 is performed (R331). -/
def State.commitSlot (s : State) (r : ReaderId) (slot : Fin 8) : State :=
  if (s.reader r).drop[slot].captured then s.modReader r (fun x => { x with dropRejects := satInc x.dropRejects })
  else if (s.reader r).dropEn && s.mayCapture r then s.captureSlot r slot
  else s

/-- The COMMIT word that captures (Table 14.5). -/
def commitGo : DWord := 0xA5
/-- A whole COMMIT piece is performed. [log DEDUCED 73] -/
def State.commitPiece (s : State) (r : ReaderId) (slot : Fin 8) (word : DWord) : State :=
  if word = commitGo then s.commitSlot r slot
  else if (s.reader r).drop[slot].captured then
    s.modReader r (fun x => { x with dropRejects := satInc x.dropRejects })
  else s

/-- The part of a write of `bytes` at `offset` of the book drop that falls in a slot: placed, or dropped and counted
where the slot is captured; then its COMMIT piece, where the write covers all of it. [log DEDUCED 73] -/
def State.writeSlot (s : State) (r : ReaderId) (offset : Nat) (bytes : List Byte) (slot : Fin 8) : State :=
  let base := 512 * slot.val
  let here := ((List.range bytes.length).zip bytes).filter (fun ib => inSpan (offset + ib.1) base 512)
  if here.isEmpty then s
  else if (s.reader r).drop[slot].captured then
    s.modReader r (fun x => { x with dropRejects := satInc x.dropRejects })
  else
    let s := here.foldl (fun (t : State) ib =>
      let at_ := offset + ib.1 - base
      if at_ < 504 then
        t.modReader r (fun x =>
          let d := x.drop[slot]
          { x with drop := x.drop.set slot { d with bytes := d.bytes.put Memory.blank at_ ib.2 } })
      else t) s
    if offset ≤ base + 504 ∧ base + 512 ≤ offset + bytes.length then
      s.commitPiece r slot (BitVec.ofNat 64 (fieldAt bytes (base + 504 - offset) 8))
    else s
/-- A write of book-drop bytes, slot by slot (R331). -/
def State.dropWrite (s : State) (r : ReaderId) (offset : Nat) (bytes : List Byte) : State :=
  (List.finRange 8).foldl (fun t slot => t.writeSlot r offset bytes slot) s
/-- A posted request write joins those that wait in its port controller (R326). -/
def State.waitWrite (s : State) (r : ReaderId) (w : WaitingWrite) : State :=
  s.modPort (readerPort r) (fun p => { p with waiting := p.waiting ++ [(r, w)] })

/-- Posted request writes cannot be captured now: they wait in the port controller (R67, R111, R326), nor
once a wafer reset has ended all work (R355). [log DEDUCED 68] -/
def State.captureWaits (s : State) : Bool :=
  !s.isReady || s.mbx.running == some .waferReset ||
    (match s.act with
     | .dead _ => true
     | _ => false)

/-- The request writes that waited in the port controllers are captured, in their order of arrival at each port.
[log DEDUCED 68] -/
def State.captureWaiting (s : State) : State :=
  allPorts.foldl (fun t p =>
    let ws := (t.port p).waiting
    ws.foldl (fun u w =>
      match w.2 with
      | .doorbell tail => u.doorbell w.1 tail
      | .drop offset bytes => u.dropWrite w.1 offset bytes) (t.modPort p (fun x => { x with waiting := [] }))) s

end Sys2Proof.Machine
end

