-- ==== Sys2Proof/Machine/LinkOps.lean ====
section
/-! DEFINITION. Machine/LinkOps.lean: what a failed peer link and an abort wave do (R375 to R383). -/

namespace Sys2Proof.Machine

/-- The alcove through which the presiding curator sends: the first of its two that is not blocked (R41, R47).
[log DESIGN CHOICE 40] -/
def State.curatorAlcove (s : State) : AlcoveId :=
  ((curatorAlcoves s.cur.leafB).find? (fun a => !s.isBlocked a.folio)).getD (alcoveAt (if s.cur.leafB then 68 else 67) 67)

/-- Ring sizes SX, SY, SZ of a shape (R366, Table 16.4: stored minus 1). -/
def ringSize (shape : BitVec 11) (axis : Nat) : Nat :=
  (match axis with
   | 0 => natBits shape.toNat 0 4
   | 1 => natBits shape.toNat 4 4
   | _ => natBits shape.toNat 8 3) + 1
/-- A coordinate of a wafer, laid out as DW (Table 9.2). -/
def waferCoord (w : BitVec 11) (axis : Nat) : Nat :=
  match axis with
  | 0 => natBits w.toNat 0 4
  | 1 => natBits w.toNat 4 4
  | _ => natBits w.toNat 8 3
/-- The wafer at coordinates. -/
def waferAt (x y z : Nat) : BitVec 11 := BitVec.ofNat 11 (x % 16 + y % 16 * 16 + z % 8 * 256)
/-- The neighbour in a direction: −X, +X, −Y, +Y, −Z, +Z (R366). -/
def neighbourWafer (shape own : BitVec 11) (dir : Nat) : BitVec 11 :=
  let axis := dir / 2
  let n := ringSize shape axis
  let step (a : Nat) : Nat :=
    let v := waferCoord own a
    if a = axis then (if dir % 2 = 1 then (v + 1) % n else (v + n - 1) % n) else v
  waferAt (step 0) (step 1) (step 2)

/-- The PEER_LINK notice: 1 failed, 2 restored (Table 14.10). -/
def State.linkNotice (s : State) (what : Nat) (l : LinkId) : State :=
  s.ownerNotice 0x09 (leBytes 1 what ++ leBytes 1 (linkDir l) ++ leBytes 1 (linkNum l))

/-- Every pass of a bay, and of its duplex partner, is to end by one ending (R378, R422). -/
def State.abortBay (s : State) (b : BayId) (e : Ending) : State :=
  (s.pair b).foldl (fun t c => t.stopAll c (fun _ => true) e) s

/-- Every pass of a bay ends at once, no clock running to carry a recall (R66, R289). -/
def State.endBayNow (s : State) (b : BayId) (e : Ending) : State :=
  let s := (s.bay b).next.foldl (fun t p => t.endNext b p e) s
  let s := s.endShelved b e
  match (s.bay b).pass with
  | none => s
  | some p =>
    if p.recorded then s.endPass b
    else (s.modPass b (fun p => { p with ending := some (Ending.merge p.ending e) })).endPass b

/-- A wave's choice of set for a bay: the first choice stands; another is a conflict, which holds the bay (R382).
[log DEDUCED 142] -/
def Bay.chooseSet (x : Bay) (set : Nat) : Bay × Bool :=
  match x.waveSet with
  | none => ({ x with waveSet := some set, waveHold := true }, false)
  | some n => if n = set then (x, false) else ({ x with waveSet := some 16, waveHold := true }, true)
/-- Record a wave's choice of set. -/
def State.chooseSet (s : State) (b : BayId) (set : Nat) : State :=
  let (_, bad) := (s.bay b).chooseSet set
  let t := s.modBay b (fun x => (x.chooseSet set).1)
  if bad then { t with lnk := { t.lnk with evConflict := true } } else t

/-- The data flit of an ABORT packet (Table 16.3). -/
def waveBytes (w : AbortWave) : List Byte :=
  leBytes 4 w.catBay.toNat ++ leBytes 2 w.origin.toNat ++ leBytes 2 w.wave.toNat ++ leBytes 1 w.dir.toNat ++
    leBytes 1 w.link.toNat ++ leBytes 1 w.set.toNat ++ leBytes 3 0

/-- The wave that a data flit of an ABORT packet spells (Table 16.3). -/
def waveOf (bs : List Byte) : AbortWave :=
  { catBay := BitVec.ofNat 32 (fieldAt bs 0 4), origin := BitVec.ofNat 11 (fieldAt bs 4 2),
    wave := BitVec.ofNat 16 (fieldAt bs 6 2), dir := BitVec.ofNat 8 (fieldAt bs 8 1),
    link := BitVec.ofNat 8 (fieldAt bs 9 1), set := BitVec.ofNat 8 (fieldAt bs 10 1) }

/-- An ABORT packet toward a neighbouring wafer's presiding curator, in class 1 from its first hop (R220, R379).
[log DESIGN CHOICE 40] -/
def State.abortPacket (s : State) (dw : BitVec 11) (w : AbortWave) : Packet :=
  let a := s.curatorAlcove
  Packet.sealed
    { Packet.blank with
      type := 9, cls := true, sys := true, len := 1, dw := dw, dax := 67, day := 67, dport := 16, sw := s.ownWafer,
      sax := BitVec.ofNat 8 a.ax.val, say := BitVec.ofNat 8 a.ay.val, sport := 16, data := toFlits 1 (waveBytes w) }

/-- Forward a wave to every neighbour on the bay's crossing tree but the one it came from (R379). -/
def State.forwardWave (s : State) (b : BayId) (w : AbortWave) (from_ : Option (BitVec 11)) : State :=
  let dws := ((s.crossingsOf b).map (fun e => neighbourWafer s.lnk.shape s.lnk.coord e.dir)).eraseDups
  s.inject s.curatorAlcove 8 ((dws.filter (fun d => some d != from_)).map (fun d => s.abortPacket d w))

/-- A failed crossing starts a wave in its bay (R379, R382). -/
def State.originateWave (s : State) (b : BayId) (l : LinkId) : State :=
  match s.bayEntry b with
  | none => s
  | some e =>
    let set := match s.cdx.codex with
      | none => 0
      | some x =>
        match x.alternates.find? (fun a => a.bay == b && a.dir == linkDir l && a.link == linkNum l) with
        | none => 0
        | some a => a.set
    let w : AbortWave :=
      { catBay := e.catBay, origin := s.lnk.coord, wave := s.lnk.waveNo, dir := BitVec.ofNat 8 (linkDir l),
        link := BitVec.ofNat 8 (linkNum l), set := BitVec.ofNat 8 set }
    let s := { s with lnk := { s.lnk with waveNo := s.lnk.waveNo + 1, originated := satInc s.lnk.originated } }
    let s := s.modBay b (fun x => { x with waves := x.waves ++ [(w.origin, w.wave)] })
    ((s.forwardWave b w none).chooseSet b set).abortBay b (s.aborted 5)

/-- A crossing of a link fails: its bay's wave, and the abort of every bay with a WAFERMAP entry (R375, R378).
[log DEDUCED 141] -/
def State.failCrossing (s : State) (l : LinkId) : State :=
  match s.linkCrossing l with
  | none => s
  | some e =>
    let s := s.originateWave e.bay l
    s.bayIds.foldl (fun t b =>
      if b != e.bay && t.hasWafermap b then t.abortBay b (t.aborted 5) else t) s

/-! ### Credits (R213, R216) -/

/-- The router beyond an output N, E, S or W; none at the edge. -/
def neighbourRouter (a : AlcoveId) (out : RouterPort) : Option AlcoveId :=
  match out.val with
  | 0 => if 0 < a.ay.val then some (alcoveAt a.ax.val (a.ay.val - 1)) else none
  | 1 => if a.ax.val + 1 < 136 then some (alcoveAt (a.ax.val + 1) a.ay.val) else none
  | 2 => if a.ay.val + 1 < 136 then some (alcoveAt a.ax.val (a.ay.val + 1)) else none
  | 3 => if 0 < a.ax.val then some (alcoveAt (a.ax.val - 1) a.ay.val) else none
  | _ => none
/-- The port at the other end of a link between routers. -/
def facing (port : RouterPort) : RouterPort := Fin.ofNat 9 ((port.val + 2) % 4)

/-- Free flits that a router counts beyond an output, in a channel. -/
def Router.free (r : Router) (out : RouterPort) (ch : Nat) : Nat := r.credit.toArray.getD (4 * out.val + ch) 0
/-- Set that count. -/
def Router.setFree (r : Router) (out : RouterPort) (ch n : Nat) : Router :=
  { r with credit := r.credit.setIfInBounds (4 * out.val + ch) n }
/-- The flits of a packet leave an input: the router upstream has its credits back. -/
def State.giveBack (s : State) (a : AlcoveId) (port : RouterPort) (p : Packet) : State :=
  match neighbourRouter a port with
  | none => s
  | some u =>
    s.modRouter u (fun r => r.setFree (facing port) p.channel (min 8 (r.free (facing port) p.channel + p.flits)))

/-- Flits buffered in a channel of an input. -/
def Router.used (r : Router) (port : RouterPort) (ch : Nat) : Nat :=
  ((r.buf.filter (fun q => q.port == port && q.pkt.channel == ch)).map (fun q => q.pkt.flits)).sum
/-- An input has room for a packet: its channel buffers 8 flits (R216). [log DESIGN CHOICE 175] -/
def Router.room (r : Router) (port : RouterPort) (p : Packet) : Bool := decide (r.used port p.channel + p.flits ≤ 8)
/-- The free flits of the channels of an input in BODY bits [15:0] of a credit-sync word, four bits a channel, request
class 0 lowest (R213). [log DEDUCED 38] -/
def Router.syncWord (r : Router) (port : RouterPort) : BitVec 128 :=
  linkWordOf true false false false 0
    (BitVec.ofNat 112 (([0, 1, 2, 3].map (fun k => (8 - r.used port k) * 16 ^ k)).sum))
/-- After an uncorrectable word both routers of a link send a credit-sync word (R213). -/
def State.exchangeSync (s : State) (a : AlcoveId) (port : RouterPort) : State :=
  match neighbourRouter a port with
  | none => s
  | some u =>
    { s with syncs := s.syncs ++
        [⟨u, facing port, (s.router a).syncWord port⟩, ⟨a, port, (s.router u).syncWord (facing port)⟩] }
/-- What the checks of link words add to RT_LINK of a folio (R213). -/
def State.countWords (s : State) (f : FolioId) (ws : List LinkCheck) : State :=
  s.modFolio f (fun x =>
    { x with linkCe := satAdd x.linkCe (ws.count .single), linkUe := satAdd x.linkUe (ws.count .double) })

/-- Packets sent toward a link and still on their way to its port are discarded (R377); the count is of them. -/
def State.dropToward (s : State) (l : LinkId) : State × Nat :=
  let mine (t : Transit) : Bool := t.dest == Wire.link l || t.via == some l
  let gone := s.net.filter mine
  let s : State := { s with net := s.net.filter (fun t => !mine t) }
  let s := gone.foldl (fun t g =>
    match g.dest with
    | .router a port => t.giveBack a port g.pkt
    | _ => t) s
  s.routers.foldl (fun (t : State × Nat) e =>
    let a : AlcoveId := alcoveAt (e.1 % 136) (e.1 / 136)
    let held := e.2.buf.filter (fun q => q.via == some l)
    let u := t.1.modRouter a (fun r => { r with buf := r.buf.filter (fun q => q.via != some l) })
    (held.foldl (fun v q => v.giveBack a q.port q.pkt) u, t.2 + held.length)) (s, gone.length)

/-- The wafer resumes after a freeze: its links in service train again from the first stage (R383). [log DEDUCED 185] -/
def State.retrainLinks (s : State) : State :=
  allLinks.foldl (fun t l =>
    if !(t.link l).inService then t
    else
      let (u, out) := t.dropToward l
      u.modLink l (fun k =>
        { k with state := .training, stage := 1, passed4 := false, drops := satAdd k.drops out, words := [], partial_ := [],
                 rxSeq := none, txAck := none, nackSent := false, replayAt := [], retryAt := none })) s

/-- A link is declared failed (R377): routed packets in its buffers, and those sent toward it, are discarded and
counted, a notice goes out, its crossing fails, and it trains again 10 ms later (R367). -/
def State.linkFail (s : State) (l : LinkId) : State :=
  let (s, out) := s.dropToward l
  let s := { s with lnk := { s.lnk with evFailed := true } }
  let s := s.modLink l (fun k =>
    { k with state := .failed, stage := 0, passed4 := false, fails := satInc k.fails, drops := satAdd k.drops out,
             words := [], partial_ := [], rxSeq := none, txAck := none, nackSent := false, replayAt := [],
             retryAt := some (s.ext + 1000000) })
  (s.linkNotice 1 l).failCrossing l

end Sys2Proof.Machine
end

