-- ==== Sys2Proof/Machine/RouterOps.lean ====
section
/-! DEFINITION. Machine/RouterOps.lean: an alcove router: the checks at an input, routes, arbitration and credits
(R210 to R224). -/

namespace Sys2Proof.Machine

/-! ### Routes (R218, R219) -/

/-- Places of a folio's links `first` to `first + j` of a direction with `k` links a folio: rising, and each leaving room
for the rest below 17; otherwise open (Config.linkSlot). [log DESIGN CHOICE 40] -/
def linkSite (dir first k : Nat) : Nat → Nat
  | 0 => min (Config.linkSlot (linkOf dir first)) (17 - k)
  | j + 1 => max (linkSite dir first k j + 1) (min (Config.linkSlot (linkOf dir (first + j + 1))) (18 + j - k))
/-- The alcove a peer link attaches to: in increasing row or column order along its folio's face (R41).
[log DESIGN CHOICE 40] -/
def linkAlcove (l : LinkId) : AlcoveId :=
  let f := linkFolio l
  let bx := folioX f * 17
  let by_ := folioY f * 17
  let k := if linkDir l < 4 then 2 else 4
  let n := linkSite (linkDir l) (linkNum l / k * k) k (linkNum l % k)
  match linkDir l with
  | 0 => alcoveAt bx (by_ + n)
  | 1 => alcoveAt (bx + 16) (by_ + n)
  | 2 | 4 => alcoveAt (bx + n) by_
  | _ => alcoveAt (bx + n) (by_ + 16)

/-- A router has an attach port A: a librarian, a curator, a host port, a populated archive channel or a peer link attaches
there (R42, R210). -/
def State.attached (s : State) (a : AlcoveId) : Bool :=
  (a.ax.val % 17 == 8 && a.ay.val % 17 == 8) || (curatorAlcoves false ++ curatorAlcoves true).contains a ||
    allPorts.any (fun p => portAlcove p == a) ||
    (List.range 256).any (fun ch => s.channelPopulated ch && channelAlcove ch == a) ||
    allLinks.any (fun l => linkAlcove l == a)

/-- The direction a packet for another wafer takes: x, then y, then z, the shorter way round, + at equality. -/
def waferDir (shape own dw : BitVec 11) : Option Nat :=
  ([0, 1, 2].find? (fun axis => waferCoord own axis != waferCoord dw axis)).map (fun axis =>
    let n := ringSize shape axis
    let d := (waferCoord dw axis + n - waferCoord own axis) % n
    2 * axis + (if 2 * d ≤ n then 1 else 0))
/-- The link of the direction: (DAX + DAY) mod 8, or the next in service. -/
def State.chooseLink (s : State) (p : Packet) : Option LinkId :=
  match waferDir s.lnk.shape s.ownWafer p.dw with
  | none => none
  | some dir =>
    ((List.range 8).map (fun i => linkOf dir (p.dax.toNat + p.day.toNat + i))).find? (fun l => (s.link l).inService)

/-- The output toward an alcove, x before y; `last` at that alcove. -/
def hopPort (a : AlcoveId) (x y : Nat) (last : RouterPort) : RouterPort :=
  if a.ax.val < x then 1 else if x < a.ax.val then 3 else if a.ay.val < y then 2 else if y < a.ay.val then 0 else last
/-- The output of a packet at a router. A DPORT above 16, to which the spec gives no meaning, leaves like 16.
[log DESIGN CHOICE 176] -/
def outPort (a : AlcoveId) (p : Packet) (via : Option LinkId) : RouterPort :=
  match via with
  | none => hopPort a p.dax.toNat p.day.toNat (if p.dport.toNat < 16 then rowPort p.dport.toNat else 8)
  | some l => hopPort a (linkAlcove l).ax.val (linkAlcove l).ay.val 8

/-- The wrap link of a ring: the hop between coordinates n − 1 and 0 (R220). -/
def wrapHop (shape own : BitVec 11) (dir : Nat) : Bool :=
  let v := waferCoord own (dir / 2)
  if dir % 2 = 1 then v + 1 == ringSize shape (dir / 2) else v == 0
/-- The class of a packet as it leaves over a link (R220). -/
def State.leaveClass (s : State) (p : Packet) (l : LinkId) : Bool :=
  p.cls || (p.type == 9 && !p.reply) || wrapHop s.lnk.shape s.ownWafer (linkDir l)
/-- The class of a packet that came in over a link: class 0 where it turns to another coordinate or has arrived. -/
def State.arriveClass (s : State) (p : Packet) (l : LinkId) : Bool :=
  (p.type == 9 && !p.reply) ||
    (p.cls && (match waferDir s.lnk.shape s.ownWafer p.dw with
               | none => false
               | some dir => dir / 2 == linkDir l / 2))

/-! ### Checks at an input (R213, R214, R222, R223) -/

/-- LEN of a packet that carries data: 1, 2 or 5. -/
def lenData (len : BitVec 3) : Bool := len == 1 || len == 2 || len == 5
/-- The packet is a row of Table 9.3: its type, and the SYS and LEN of that row. What an input does with a defined TYPE
whose SYS or LEN its row does not list is left open; it is dropped like an undefined type.
[log DEDUCED 33; DESIGN CHOICE 177] -/
def Packet.typeOk (p : Packet) : Bool :=
  match p.reply, p.type.toNat with
  | true, 1 => lenData p.len
  | true, 2 => p.len == 0
  | false, 1 => p.len == 0
  | false, 2 => lenData p.len
  | false, 3 => !p.sys && p.len == 0
  | false, 4 => !p.sys && p.len == 1
  | false, 8 | false, 9 => p.sys && p.len == 1
  | _, _ => false

/-- A router's entries let a ticket in at a port (R222). -/
def Router.allows (r : Router) (ticket : BitVec 16) (port : RouterPort) : Bool :=
  r.tickets.any (fun e => e.ticket == ticket && bitOf e.ports port.val)

/-- Why an input discards a packet: the causes of RT_CAPTURE. -/
inductive Discard where
  | ticket | sys | hdr | noRoute
deriving DecidableEq, Repr

/-- A packet's header names a port of its last router: a carrel, or an attach port that is there. [log DESIGN CHOICE 176] -/
def State.portOk (s : State) (p : Packet) : Bool :=
  decide (p.dport.toNat < 16) || p.dw != s.ownWafer || s.attached (alcoveAt p.dax.toNat p.day.toNat)

/-- What an input makes of a packet whose words are good: the discard, or the link it is sent toward. Where several causes
apply, the first of HDR, SYS, TICKET and NO_ROUTE is the one counted. [log DESIGN CHOICE 178] -/
def State.inspect (s : State) (a : AlcoveId) (port : RouterPort) (p : Packet) (via : Option LinkId) :
    Except Discard (Option LinkId) :=
  if !Packet.typeOk p || !s.portOk p then .error .hdr
  else if p.sys && inSpan port.val 4 4 then .error .sys
  else if !p.sys && !(s.router a).allows p.ticket port then .error .ticket
  else if p.dw == s.ownWafer || via.isSome then .ok via
  else match s.chooseLink p with
    | none => .error .noRoute
    | some l => .ok (some l)

/-- The first discard is captured (R227). -/
def RtCapture.take (c : RtCapture) (a : AlcoveId) (port : RouterPort) (p : Packet) (cause : Nat) : RtCapture :=
  if c.valid then c
  else { ticket := p.ticket, a := BitVec.ofNat 5 (a.ax.val % 17), b := BitVec.ofNat 5 (a.ay.val % 17),
         port := BitVec.ofNat 4 port.val, cause := BitVec.ofNat 3 cause, valid := true }
/-- A discard is counted and captured in the router's folio. -/
def State.discardAt (s : State) (a : AlcoveId) (port : RouterPort) (p : Packet) (d : Discard) : State :=
  s.modFolio a.folio (fun x =>
    match d with
    | .ticket => { x with dropTicket := satInc x.dropTicket, capture := x.capture.take a port p 1 }
    | .sys => { x with dropSys := satInc x.dropSys, capture := x.capture.take a port p 2 }
    | .hdr => { x with dropHdr := satInc x.dropHdr, capture := x.capture.take a port p 3 }
    | .noRoute => { x with dropRoute := satInc x.dropRoute, capture := x.capture.take a port p 4 })

/-! ### Arbitration (R216, R217) -/

/-- A packet stands at the head of its input's channel. -/
def Router.isHead (r : Router) (q : Buffered) : Bool :=
  r.buf.find? (fun o => o.port == q.port && o.pkt.channel == q.pkt.channel) == some q

/-- A folio that a packet would enter takes packets: Warm or Dim (R77, R211). -/
def State.folioRouts (s : State) (f : FolioId) : Bool := (s.folio f).clock == .warm || (s.folio f).clock == .dim

/-- The way beyond an output is open to a packet: credit for the whole of it, and a clocked router; an endpoint
always takes it. [log DEDUCED 39] -/
def State.mayLeave (s : State) (a : AlcoveId) (q : Buffered) : Bool :=
  if q.out.val < 4 then
    match neighbourRouter a q.out with
    | none => false
    | some b => s.folioRouts b.folio && decide (q.pkt.flits ≤ (s.router a).free q.out q.pkt.channel)
  else true

/-- Whether `q` goes before `o` at an output: ABORT, then the channels, then the turn after the last winner. -/
def Router.beats (r : Router) (q o : Buffered) : Bool :=
  let ab (x : Buffered) : Nat := b2n (x.pkt.type == 9 && !x.pkt.reply)
  let turn (x : Buffered) : Nat :=
    (x.port.val + 8 - r.lastWin.toArray.getD (4 * x.out.val + x.pkt.channel) 8) % 9
  if ab q ≠ ab o then decide (ab o < ab q)
  else if q.pkt.channel ≠ o.pkt.channel then decide (o.pkt.channel < q.pkt.channel)
  else decide (turn q < turn o)

/-- The winner of an output. -/
def State.winner (s : State) (a : AlcoveId) (out : RouterPort) : Option Buffered :=
  let r := s.router a
  (r.buf.filter (fun q => q.out == out && r.isHead q && s.mayLeave a q)).foldl (fun best q =>
    match best with
    | none => some q
    | some o => if r.beats q o then some q else some o) none

/-- A packet leaves a router: its credits go back upstream, and it is on the next wire. -/
def State.leave (s : State) (a : AlcoveId) (q : Buffered) : State :=
  let i := 4 * q.out.val + q.pkt.channel
  let s := s.modRouter a (fun r =>
    { r with buf := r.buf.erase q, lastWin := r.lastWin.setIfInBounds i q.port.val })
  let s := s.giveBack a q.port q.pkt
  match neighbourRouter a q.out with
  | some b =>
    let s := s.modRouter a (fun r => r.setFree q.out q.pkt.channel (r.free q.out q.pkt.channel - q.pkt.flits))
    { s with net := s.net ++ [{ dest := .router b (facing q.out), pkt := q.pkt, via := q.via }] }
  | none =>
    match q.via with
    | none => { s with net := s.net ++ [{ dest := .endpoint, pkt := q.pkt }] }
    | some l => { s with net := s.net ++ [{ dest := .link l, pkt := { q.pkt with cls := s.leaveClass q.pkt l }, via := some l }] }

/-- A Dark folio that a waiting packet would enter wakes as if its bit had been cleared (R77). [log DEDUCED 39, 89] -/
def State.wakeToward (s : State) (f : FolioId) : State :=
  if (s.folio f).clock == .dark then s.modFolio f (fun x => { x with waking := true, wakeHeld := true }) else s
/-- What still waits at a router wakes Dark folios. [log DESIGN CHOICE 35] -/
def State.waitAt (s : State) (a : AlcoveId) : State :=
  let outs := ((s.router a).buf.map (fun q => q.out)).eraseDups
  outs.foldl (fun t o =>
    match neighbourRouter a o with
    | none => t
    | some b => t.wakeToward b.folio) s

/-- Outputs of a router at which a packet waits for credit: the head of a channel whose way is clocked (R227). -/
def State.blockedOuts (s : State) (a : AlcoveId) : Nat :=
  let r := s.router a
  ((List.finRange 9).filter (fun o => r.buf.any (fun q => q.out == o && r.isHead q && !s.mayLeave a q &&
    (match neighbourRouter a o with
     | none => false
     | some b => s.folioRouts b.folio)))).length
/-- BLOCKED counts the output-cycles of one reference tick: the fabric makes its frequency in MHz over 100 cycles in it
(R227). -/
def State.countBlocked (s : State) : State :=
  let cycles := freqMHz s.clk.freq / 100
  (s.routers.filter (fun e => !e.2.buf.isEmpty)).foldl (fun t e =>
    let a := alcoveAt (e.1 % 136) (e.1 / 136)
    let n := if s.folioRouts a.folio then s.blockedOuts a else 0
    if n = 0 then t else t.modFolio a.folio (fun x => { x with blocked := satAdd x.blocked (n * cycles) })) s

/-- Routers send what can go, and the routers behind them after them; `n` bounds the packets.
[log DESIGN CHOICE 36] -/
def State.pump (s : State) (todo : List AlcoveId) : Nat → State
  | 0 => s
  | n + 1 =>
    match todo with
    | [] => s
    | a :: rest =>
      if !s.folioRouts a.folio then s.pump rest n
      else match (List.finRange 9).findSome? (fun o => s.winner a o) with
        | none => (s.waitAt a).pump rest n
        | some q => (s.leave a q).pump ((a :: (neighbourRouter a q.port).toList) ++ rest) n

/-- Packets buffered in all routers: a bound on what may move. -/
def State.buffered (s : State) : Nat := (s.routers.map (fun e => e.2.buf.length)).sum
/-- Routers of a list send what can go. -/
def State.pumpFrom (s : State) (as : List AlcoveId) : State := s.pump as (3 * s.buffered + as.length + 1)
/-- Every router that holds a packet sends what can go. [log DESIGN CHOICE 36] -/
def State.pumpAll (s : State) : State :=
  s.pumpFrom ((s.routers.filter (fun e => !e.2.buf.isEmpty)).map (fun e => alcoveAt (e.1 % 136) (e.1 / 136)))

/-! ### A packet arrives -/

/-- A packet at an input is checked and forwarded or discarded; the credits of a discarded one go back. -/
def State.arrive (s : State) (a : AlcoveId) (port : RouterPort) (p : Packet) (via : Option LinkId) : State :=
  match s.inspect a port p via with
  | .error d => (s.discardAt a port p d).giveBack a port p
  | .ok via =>
    let q : Buffered := { port := port, pkt := p, out := outPort a p via, via := via }
    (s.modRouter a (fun r => { r with buf := r.buf ++ [q] })).pumpFrom [a]

end Sys2Proof.Machine
end

