-- ==== Sys2Proof/Machine/ReaderOps.lean ====
section
/-! DEFINITION. Machine/ReaderOps.lean: readers that become away, reader resets and port resets (R340, R343, R356 to
R360), and the end of a codex load, which lets deferred resets go on (R265, R268, R269). -/

namespace Sys2Proof.Machine

/-- The code of a curator command result (Table 14.14). -/
def CmdResult.code : CmdResult → Nat
  | .done => 0 | .busy => 1 | .refusedNotReady => 2 | .refusedState => 3 | .refusedAuth => 4 | .badImage => 5
  | .noResource => 6 | .unknown => 7

/-- The running mailbox command posts its result and sends vector 3 (R344). -/
def State.mbxPost (s : State) (r : CmdResult) : State :=
  let m := s.mbx
  (({ s with mbx := { m with result := r, running := none, tag := m.runTag, seq := m.seq + 1 } } : State).msix
    s.ownerFn 3)
/-- A command answered BUSY posts with its own tag and disturbs nothing (R344). -/
def State.mbxBusy (s : State) (tag : BitVec 16) : State :=
  (({ s with mbx := { s.mbx with result := .busy, tag := tag, seq := s.mbx.seq + 1 } } : State).msix s.ownerFn 3)

/-! ### Readers that become away -/

/-- The request of a read in progress, as far as it is known. -/
def readingRequest (r : ReaderId) (x : Reading) : Request :=
  match x with
  | .descriptor capture order => { reader := r, cls := 3, capture := capture, order := order }
  | .input q => q
  | .room q => q

/-- The descriptor being read is over: REQ_HEAD moves past it (R322). [log DEDUCED 72] -/
def Reader.passHead (x : Reader) : Reader :=
  match x.reading, x.announced with
  | some (.descriptor _ order), (next, _, o) :: rest =>
    if o = order then { x with announced := rest, reqRing := { x.reqRing with head := next } } else x
  | _, _ => x
/-- A read in progress fails: row 1 of Table 14.4. -/
def State.readFail (s : State) (r : ReaderId) : State :=
  match (s.reader r).reading with
  | none => s
  | some x =>
    (s.modReader r (fun y => { y.passHead with reading := none })).refuse (readingRequest r x) 6

/-- Where a reader is away, its reads in progress fail (R340). -/
def State.checkAway (s : State) (r : ReaderId) : State := if s.isPresent r then s else s.readFail r

/-- The functions of a port that are not at their reset values, checked after its link or VFs changed. -/
def State.checkPort (s : State) (p : PortId) : State := (s.portReaders p).foldl (fun t r => t.checkAway r) s

/-! ### Resets of a function (R343, R347, R357) -/

/-- The RDR block and the MSI-X table at their reset values; the epoch, the shelves, the held records and the captured
slots stay. [log DEDUCED 69, 77] -/
def Reader.rdrReset (x : Reader) : Reader :=
  { epoch := x.epoch, busMaster := x.busMaster, d3hot := x.d3hot, msixEn := x.msixEn, msixMask := x.msixMask,
    drop := x.drop, dropWait := x.dropWait, reading := x.reading, shelf := x.shelf, overflow := x.overflow, held := x.held,
    resetting := x.resetting, deferred := x.deferred, resetCmd := x.resetCmd }
/-- The function's configuration space at its reset values. -/
def Reader.cfgReset (x : Reader) : Reader :=
  { x with busMaster := false, d3hot := false, msixEn := false, msixMask := false }

/-- A port reset: every function of the port is away, its RDR block, MSI-X table and configuration at their reset
values (R343). [log DEDUCED 69] -/
def State.portReset (s : State) (p : PortId) : State :=
  let t := (s.portReaders p).foldl (fun t r => (t.modReader r (fun x => x.rdrReset.cfgReset)).readFail r) s
  t.modPort p (fun x => { x with vfEnable := false, numVfs := 0 })

/-- A host link goes down: its readers become away (R52, R340). -/
def State.portDown (s : State) (p : PortId) : State :=
  if !(s.port p).linkUp then s
  else
    let t := s.modPort p (fun x =>
      { x with linkUp := false, speed := 0, flit := false, width := 0, evDown := true, downs := satInc x.downs })
    (t.checkPort p).ownerNotice 0x0A (leBytes 1 1 ++ leBytes 1 p.val)

/-! ### Reader resets (R356 to R360) -/

/-- A pass of a reader stands in some bay. -/
def State.hasPass (s : State) (r : ReaderId) : Bool :=
  s.bays.any (fun e => e.2.allPasses.any (fun p => p.req.reader == r))

/-- Steps 1 to 4 of R357, at the reset tick. -/
def State.resetNow (s : State) (r : ReaderId) : State :=
  let s := s.modReader r (fun x => { x.rdrReset with resetting := true, deferred := false })
  let s := s.readFail r
  let gone := s.cands.filter (fun q => q.reader == r) ++ (s.reader r).dropWait.map (fun w => w.1)
  let s := s.modReader r (fun x => { x with dropWait := [] })
  let s := { s with cands := s.cands.filter (fun q => q.reader != r) }
  let s := gone.foldl (fun t q => t.endUnadmitted q 4 0) s
  s.bayIds.foldl (fun t b => t.stopAll b (fun p => p.req.reader == r) t.cancel) s

/-- A reader reset is captured: it joins one in progress, is deferred while a codex load runs, or begins (R268, R360).
`cmd`: the mailbox waits for it. -/
def State.readerReset (s : State) (r : ReaderId) (cmd : Bool) : State :=
  let s := if cmd then s.modReader r (fun x => { x with resetCmd := true }) else s
  if (s.reader r).resetting || (s.reader r).deferred then s
  else if s.cdx.load.isSome then s.modReader r (fun x => { x with deferred := true })
  else s.resetNow r

/-- The VFs of a port that exist. -/
def State.vfs (s : State) (p : PortId) : List ReaderId :=
  if (s.port p).vfEnable then
    (List.range (s.port p).numVfs.toNat).map (fun i => BitVec.ofNat 12 (p.val * 512 + i + 1))
  else []

/-- READER_RESET acts as an FLR of the function, its configuration space apart: of a PF, a reset of each of its VFs too
(R356). The mailbox waits for the reader it names. [log DEDUCED 77] -/
def State.resetFunction (s : State) (r : ReaderId) : State :=
  let t := if readerIndex r = 0 then (s.vfs (readerPort r)).foldl (fun t v => t.readerReset v false) s else s
  t.readerReset r true

/-- Steps 5 and 6 of R357: the epoch advances in every router, bookmarks, held records and shelves are cleared, and
RESET_DONE is placed on the emptied shelf. [log DEDUCED 67] -/
def State.resetDone (s : State) (r : ReaderId) : State :=
  let old := s.ticketOf r
  let cmd := (s.reader r).resetCmd
  let s := s.modReader r (fun x => { x with epoch := x.epoch + 1 })
  let new := s.ticketOf r
  let s := s.routers.foldl (fun (t : State) (e : Nat × Router) =>
    let x : Router := { e.2 with tickets := e.2.tickets.map (fun q => if q.ticket = old then { q with ticket := new } else q) }
    { t with routers := Tbl.set {} t.routers e.1 x }) s
  let s := s.bayIds.foldl (fun t b => t.modBay b (fun x =>
    { x with bookmarks := x.bookmarks.filter (fun m => m.reader != r),
             writing := x.writing.filter (fun p => p.req.reader != r) })) s
  let s := s.discardAll r 3
  let s := s.modReader r (fun x =>
    { x with shelf := [⟨0x0C, s.clk.tick, bytesAt (leBytes 1 x.epoch.toNat) 0 16⟩], overflow := 0, resetting := false,
             resetCmd := false })
  if cmd then s.mbxPost .done else s

/-! ### The end of a codex load -/

/-- Post a codex command's result (Table 11.11). -/
def State.cdxPost (s : State) (r : CmdResult) (check section_ item : Nat) : State :=
  let c := { s.cdx with
    result := r, check := BitVec.ofNat 8 check, section_ := BitVec.ofNat 8 section_, item := BitVec.ofNat 24 item,
    seq := s.cdx.seq + 1 }
  { s with cdx := c }

/-- Deferred reader resets take effect (R268). -/
def State.runDeferred (s : State) : State :=
  s.readerIds.foldl (fun t r => if (t.reader r).deferred then t.resetNow r else t) s

/-- A load in progress ends with one result and a CODEX notice (R265). [log DEDUCED 110] -/
def State.cdxEnd (s : State) (r : CmdResult) (check section_ item : Nat) : State :=
  match s.cdx.load with
  | none => s
  | some l =>
    let seq := if l.headerRead then l.seq.toNat else 0
    let t := ({ s with cdx := { s.cdx with load := none } } : State).cdxPost r check section_ item
    (t.ownerNotice 0x0D (leBytes 4 seq ++ leBytes 1 r.code ++ leBytes 1 check)).runDeferred

/-- A freeze or takeover abandons a load with BUSY (R269). -/
def State.cdxAbandon (s : State) : State := s.cdxEnd .busy 0 0 0

end Sys2Proof.Machine
end

