-- ==== Sys2Proof/Machine/Rails.lean ====
section
/-! DEFINITION. Machine/Rails.lean: the core rails and the AVSBus buses that step them (R81, R82, R98, R102), fractions
(R88 to R90) and margin trim (R101, R310, R311). -/

namespace Sys2Proof.Machine

/-! ### Setpoints (R81) -/

/-- The setpoint of a frequency code and a trim setting, in mV (Table 4.2). -/
def nominal (code : BitVec 2) (m : BitVec 3) : Nat :=
  (match code.toNat with
   | 0 => 800 | 1 => 740 | 2 => 700 | _ => 680) - 20 * m.toNat
/-- The safe setpoint (R81). -/
def safeSetpoint : Nat := 800
/-- The replay allowance of a trim setting (Table 13.6). -/
def allowance (m : BitVec 3) : BitVec 2 :=
  match m.toNat with
  | 0 => 0 | 1 => 1 | 2 => 1 | 3 => 2 | _ => 3

/-- The folios whose core rails are on: those not blocked (Table 3.3). -/
def State.railFolios (s : State) : List FolioId := allFolios.filter (fun f => !s.isBlocked f)

/-- A blocked folio: its clocks and its core rail are held off (R45). [log DESIGN CHOICE 160] -/
def Folio.off (x : Folio) : Folio :=
  { x with clock := .off, pll := false, idle := 0, wakeHeld := false, waking := false, setpoint := 0, railGoal := 0,
           frame := none, settled := true, adopted := 0, allow := 0, trimTo := none, trimNext := false, trimWait := false,
           runs := [] }
/-- A folio's rail is on again: the regulator powers up at the safe setpoint (R81). -/
def Folio.on (x : Folio) : Folio :=
  if x.state = .blocked then
    { x with state := .present, clock := .warm, setpoint := safeSetpoint, railGoal := safeSetpoint, settled := true }
  else { x with state := .present }
/-- The rails of every folio are on and no withdrawal stands: start-up goes through CLOCKS again. [log DEDUCED 83] -/
def State.unwithdraw (s : State) : State :=
  let t := s.mapFolios (fun _ x => x.on)
  { t with inv := { t.inv with present := 0, passMask := 0, valid := false } }

/-! ### The AVSBus buses (R82) -/

/-- Steps may be sent: no freeze but a resumption stands, and a curator drives the buses. -/
def State.stepsRun (s : State) : Bool :=
  !s.cur.taking && !s.cur.lost &&
    (match s.act with
     | .failover .. | .dead _ | .alert => false
     | _ => true)

/-- The rail wants another step, and may have it: the first step of a trim toward a lower setpoint waits for the
carrels (R101). -/
def Folio.wantsFrame (x : Folio) : Bool := x.frame.isNone && x.setpoint != x.railGoal && !x.trimWait
/-- The next step toward the rail's goal, at most 20 mV, is on its way. -/
def Folio.sendStep (x : Folio) : Folio :=
  let v := if x.setpoint < x.railGoal then min x.railGoal (x.setpoint + 20) else max x.railGoal (x.setpoint - 20)
  { x with frame := some v, settled := false }
/-- The rails of bus `k`: those of column k, in the order of a round after the rail served last. [log DESIGN CHOICE 94] -/
def State.busOrder (s : State) (k : Fin 8) : List FolioId :=
  (List.range 8).map (fun i => folioAt k.val (s.pwr.busLast[k].val + 1 + i))
/-- Bus `k` sends its next frame, where it carries none: one frame at a time (R82). [log DESIGN CHOICE 94] -/
def State.pumpBus (s : State) (k : Fin 8) : State :=
  let rows := s.busOrder k
  if rows.any (fun f => (s.folio f).frame.isSome) then s
  else match rows.find? (fun f => !s.isBlocked f && (s.folio f).wantsFrame) with
    | none => s
    | some f =>
      let t := s.modFolio f Folio.sendStep
      { t with pwr := { t.pwr with busLast := t.pwr.busLast.set k.val (Fin.ofNat 8 (folioY f)) } }
/-- Every idle bus sends its next frame, unless steps may not be sent. -/
def State.pumpBuses (s : State) : State :=
  if s.stepsRun then (List.finRange 8).foldl (fun t k => t.pumpBus k) s else s

/-- The rail stands at its goal and the regulator has reported it settled. -/
def Folio.railDone (x : Folio) : Bool := x.frame.isNone && x.setpoint == x.railGoal && x.settled
/-- Every core rail stands settled at its goal. -/
def State.railsDone (s : State) : Bool := s.railFolios.all (fun f => (s.folio f).railDone)
/-- Move every core rail. -/
def State.moveRails (s : State) (goal : Folio → Nat) : State :=
  (s.railFolios.foldl (fun t f => t.modFolio f (fun x => { x with railGoal := goal x })) s).pumpBuses

/-- The steps of a rail that are not yet sent are given up. -/
def Folio.dropSteps (x : Folio) : Folio := { x with railGoal := x.frame.getD x.setpoint }
/-- A frequency change is abandoned: no rail takes a further step of it (R103). -/
def State.dropSteps (s : State) : State := s.railFolios.foldl (fun t f => t.modFolio f Folio.dropSteps) s
/-- A freeze cancels every unsent step, and the trim changes they belong to; the event says that there were some (R98,
R102). -/
def State.cancelSteps (s : State) : State :=
  let any := s.railFolios.any (fun f => (s.folio f).railGoal != (s.folio f).frame.getD (s.folio f).setpoint)
  let s := s.railFolios.foldl (fun t f => t.modFolio f (fun x =>
    { x.dropSteps with trimTo := none, trimNext := false, trimWait := false })) s
  if any then { s with pwr := { s.pwr with evCancel := true } } else s

/-! ### Fractions (R88 to R90) -/

/-- The fraction of a folio. -/
def State.folioFraction (s : State) (f : FolioId) : Nat := min (s.folio f).railFrac s.pwr.ceiling
/-- The lowest fraction among a bay's folios. -/
def State.bayFraction (s : State) (b : BayId) : Nat :=
  (s.bayFolios b).foldl (fun m f => min m (s.folioFraction f)) 16
/-- Where a bay's minimum has changed, a dilation word is issued; a bay without a pass takes it at once.
[log DEDUCED 92] -/
def State.updateFractions (s : State) : State :=
  s.bayIds.foldl (fun t b =>
    let m := t.bayFraction b
    t.modBay b (fun x =>
      if m = x.fracSent then x
      else if x.pass.isNone then { (x.mapWords (fun p => { p with fraction := 0 })) with frac := m, fracSent := m }
      else
        let at_ := t.boundary b
        { x with fracSent := m, words := addWord x.words { at_ with fraction := BitVec.ofNat 5 m } })) s

/-! ### Trim (R101, R310, R311) -/

/-- A carrel takes a new allowance: at its bay's next beat boundary while its switch runs, else at once.
[log DEDUCED 93] -/
def Carrel.setAllow (k : Carrel) (v : BitVec 2) : Carrel :=
  if k.regs.switch.running then { k with allowNext := some v }
  else { k with allowNext := none, regs := { k.regs with st := { k.regs.st with allow := v } } }
/-- A beat boundary of its bay: the carrel adopts the allowance it was given (R101). -/
def Carrel.adoptAllow (k : Carrel) : Carrel :=
  match k.allowNext with
  | none => k
  | some v => { k with allowNext := none, regs := { k.regs with st := { k.regs.st with allow := v } } }
/-- An allowance in force on a folio, and given to the carrels of passes there. -/
def State.setAllow (s : State) (f : FolioId) (v : BitVec 2) : State :=
  let s := s.modFolio f (fun x => { x with allow := v })
  s.bayIds.foldl (fun t b =>
    if (t.bayFolios b).contains f then
      t.mapBay b (fun c k => if c.folio = f ∧ k.bay.isSome then k.setAllow v else k)
    else t) s
/-- Every carrel of a folio has adopted the folio's allowance. -/
def State.allowAdopted (s : State) (f : FolioId) : Bool :=
  s.carrels.all (fun e => e.2.allowNext.isNone || (carrelAt (e.1 % 544) (e.1 / 544)).folio != f)

/-- Carrels have adopted allowances: the first steps that waited for them may be sent (R101). -/
def State.trimGo (s : State) : State :=
  (s.railFolios.foldl (fun t f =>
    if (t.folio f).trimWait && t.allowAdopted f then t.modFolio f (fun x => { x with trimWait := false }) else t) s).pumpBuses

/-- The setting a folio is to adopt: the lowest of its request, its bays' MAX_TRIM and its ceiling. -/
def State.trimTarget (s : State) (f : FolioId) : BitVec 3 :=
  let x := s.folio f
  let m := min x.req.toNat x.ceiling.toNat
  let m := match s.cdx.codex with
    | none => m
    | some c => (c.bays.filter (fun e => e.folios.contains f)).foldl (fun n e => min n e.maxTrim.toNat) m
  BitVec.ofNat 3 m

/-- Trim changes may begin: no freeze, no frequency change, and RAISE has begun. -/
def State.trimOpen (s : State) : Bool :=
  s.act == .none && (s.cur.stage == .raise || s.cur.stage == .codex || s.cur.stage == .ready)

/-- Begin a trim change where the setting to adopt differs: toward a lower setpoint the allowance comes first, and the
first step waits until every carrel has adopted it. [log DEDUCED 93] -/
def State.beginTrim (s : State) (f : FolioId) : State :=
  let x := s.folio f
  let m := s.trimTarget f
  if m = x.adopted then s
  else
    let lower := decide (x.adopted.toNat < m.toNat)
    let s := if lower then s.setAllow f (allowance m) else s
    let wait := lower && !s.allowAdopted f
    s.modFolio f (fun y =>
      { y with adopted := m, trimTo := some m, trimWait := wait, railGoal := nominal s.clk.freq m })

/-- Evaluate a folio's trim; a change waits while one runs. -/
def State.trimEval (s : State) (f : FolioId) : State :=
  if !s.trimOpen || s.isBlocked f then s
  else if (s.folio f).trimTo.isSome then s.modFolio f (fun x => { x with trimNext := true })
  else (s.beginTrim f).pumpBuses
/-- Evaluate every folio's trim. -/
def State.trimAll (s : State) : State := s.railFolios.foldl (fun t f => t.trimEval f) s

/-- A trim change ends as its rail has settled: the allowance follows, and a change that waited begins.
[log DEDUCED 93] -/
def State.trimSettled (s : State) (f : FolioId) : State :=
  let x := s.folio f
  match x.trimTo with
  | none => s
  | some m =>
    let s := (s.setAllow f (allowance m)).modFolio f (fun y => { y with trimTo := none, trimNext := false })
    if x.trimNext then s.trimEval f else s

/-- Every folio's adopted setting is M0 and its allowance 0 (R65, R100). -/
def State.trimZero (s : State) : State :=
  s.railFolios.foldl (fun t f =>
    (t.setAllow f 0).modFolio f (fun x =>
      { x with adopted := 0, trimTo := none, trimNext := false, trimWait := false })) s
/-- Every folio adopts its setting, for the frequency in force. -/
def State.trimAdopt (s : State) : State :=
  (s.railFolios.foldl (fun t f =>
    let m := t.trimTarget f
    let t := (t.setAllow f (allowance m)).modFolio f (fun x =>
      { x with adopted := m, trimTo := none, trimNext := false, trimWait := false })
    t.modFolio f (fun x => { x with railGoal := nominal t.clk.freq m })) s).pumpBuses

end Sys2Proof.Machine
end

