-- ==== Sys2Proof/Machine/FreezeOps.lean ====
section
/-! DEFINITION. Machine/FreezeOps.lean: freezes and resumptions (R62 to R65, R97 to R105), and what they do to start-up
(R108, R112, R113). -/

namespace Sys2Proof.Machine

/-! ### Stages (R108, R112, R113) -/

/-- The number of a stage (Table 5.1). -/
def Stage.code : Stage → Nat
  | .power => 0 | .rom => 1 | .elect => 2 | .bookplate => 3 | .clocks => 4 | .inventory => 5 | .rebind => 6
  | .audit => 7 | .calibrate => 8 | .raise => 9 | .codex => 10 | .ready => 11 | .halted => 14
/-- The code of a HALTED cause (Table 5.5). -/
def HaltCause.code : HaltCause → Nat
  | .none => 0 | .imprintBad => 1 | .noCurator => 2 | .noFolio => 3 | .globalChecker => 4 | .stageLimit => 5
  | .restartLimit => 6 | .curatorLost => 7

/-- A stage begins: CUR.STAGE and its STAGE_TICK. -/
def State.enterStage (s : State) (g : Stage) : State :=
  let n := g.code
  let ticks := if h : n < 12 then s.cur.stageTick.set n s.clk.tick else s.cur.stageTick
  { s with cur := { s.cur with stage := g, stageTick := ticks, entered := s.clk.tick, wait := .none } }
/-- Start-up ends without service. -/
def State.halt (s : State) (c : HaltCause) : State :=
  let t := (s.enterStage .halted).warn 5
  { t with cur := { t.cur with cause := c } }

/-- The stages CLOCKS to RAISE (R112). -/
def Stage.bound (g : Stage) : Bool := decide (4 ≤ g.code ∧ g.code ≤ 9)
/-- The stages ROM to BOOKPLATE (R113). -/
def Stage.early (g : Stage) : Bool := decide (1 ≤ g.code ∧ g.code ≤ 3)

/-- A restart of start-up counts; the ninth halts. The Bool says that start-up goes on. -/
def State.countRestart (s : State) : State × Bool :=
  let n := s.cur.restarts + 1
  let t := { s with cur := { s.cur with restarts := n } }
  if 9 ≤ n then (t.halt .restartLimit, false) else (t, true)

/-- CLOCKS begins once every rail stands at the safe setpoint (R112). [log DEDUCED 96] -/
def State.tryClocks (s : State) : State :=
  if s.cur.wait = .safeRails ∧ s.railsDone then s.enterStage .clocks else s
/-- No folio PLL runs, and no meter awaits a calibration. -/
def State.pllsOff (s : State) : State :=
  { s with clk := { s.clk with pllsRun := false, lockWait := false }, pwr := { s.pwr with calibrating := false } }
/-- Every core rail moves to the safe setpoint; then CLOCKS begins (R112). [log DEDUCED 96] -/
def State.towardClocks (s : State) : State :=
  let t : State := { s.pllsOff with act := .none, cur := { s.cur with wait := .safeRails, heartbeat := s.ext } }
  (t.unwithdraw.trimZero.moveRails (fun _ => safeSetpoint)).tryClocks
/-- CLOCKS begins again. [log DEDUCED 83, 96] -/
def State.restartClocks (s : State) : State :=
  match s.countRestart with
  | (t, false) => { t with act := .none }
  | (t, true) => t.towardClocks.flashNext

/-- BOOKPLATE begins, with the curator that presides (R110, R461): no folio PLL runs. -/
def State.toBookplate (s : State) : State := ({ s.pllsOff with act := .none } : State).enterStage .bookplate

/-! ### Freezes -/

/-- What every freeze does: a codex load is abandoned (R269), reservations are lost (R243), and passes of bays that
span wafers end (R66). [log DEDUCED 82] -/
def State.freezeCommon (s : State) : State :=
  let s := s.cdxAbandon.flashStop
  let s : State := { s with clk := { s.clk with lockWait := false } }
  let s := s.carrels.foldl (fun (t : State) (e : Nat × Carrel) =>
    { t with carrels := Tbl.set {} t.carrels e.1 { e.2 with reserved := none } }) s
  s.bayIds.foldl (fun t b => if t.spans b then t.endBayNow b (t.aborted 4) else t) s

/-- A failover or a planned switch begins (R60, R62): the selector switches, the field STANDBY takes the value it has
afterwards, and the clocks wait for the relock. [log DEDUCED 86] -/
def State.enterFailover (s : State) (planned : Bool) (p : PortId) (standby : BitVec 4) : State :=
  let lost := s.clk.active
  let c := { s.clk with active := p, standby := standby, ppmValid := 0 }
  let s := match s.act with
    | .freqChange _ => s.dropSteps
    | _ => s
  ({ s with clk := c, act := .failover planned lost standby } : State).freezeCommon

/-- A failover's event, count and notice (R62). -/
def State.failoverReport (s : State) (lost : PortId) : State :=
  let c := { s.clk with evFailover := true, failovers := satInc s.clk.failovers }
  ({ s with clk := c } : State).referenceNotice 2 s.clk.active lost

/-- A dead freeze (R63, R102). [log DEDUCED 81] -/
def State.enterDead (s : State) : State :=
  let lost := s.clk.active
  let wasAlert := match s.act with
    | .alert | .alertResume _ => true
    | _ => s.clk.alertHeld
  let c := { s.clk with
    activeValid := false, pllsRun := false, ppmValid := 0, evDead := true, deadFreezes := satInc s.clk.deadFreezes, alertHeld := wasAlert }
  let s := ({ s with clk := c } : State).cancelSteps
  let s := s.dropWriteBacks.freezeCommon
  ({ s with act := .dead lost } : State).referenceNotice 3 lost 0

/-- An alert freeze's event, count and notice. -/
def State.alertReport (s : State) : State :=
  let p := { s.pwr with evAlert := true, alerts := satInc s.pwr.alerts }
  (({ s with pwr := p } : State).warn 6).ownerNotice 0x06 (leBytes 1 1 ++ leBytes 1 s.pwr.asserted.toNat)
/-- An alert freeze (R97, R98). -/
def State.enterAlert (s : State) : State :=
  let s := s.cancelSteps.dropWriteBacks.freezeCommon
  ({ s with act := .alert, clk := { s.clk with alertHeld := false } } : State).alertReport
/-- An alert freeze by lines that the curator finds asserted: they latch (R98). -/
def State.enterLatched (s : State) : State :=
  ({ s with pwr := { s.pwr with latched := s.pwr.latched ||| s.pwr.asserted } } : State).enterAlert

/-- ROM begins from a port (R57): it is active, with no standby armed; alert lines that stand asserted freeze the wafer
again (R97, R113). -/
def State.beginRom (s : State) (p : PortId) : State :=
  let c := { s.clk with
    active := p, activeValid := true, standby := 0xF, ppmValid := 0, pllsRun := false, lockWait := false }
  let t : State := { s with clk := c, act := .none }
  let t := t.enterStage .rom
  let t : State :=
    { t with cur := { t.cur with curA := { deposed := t.cur.curA.deposed }, curB := { deposed := t.cur.curB.deposed } } }
  if t.pwr.asserted = 0 then t else t.enterLatched

/-- The first-ready port: of the ready ports the one whose flag set first, the lowest-numbered among equals (R57). Where
several are ready already as start-up restarts, R57 names none of them. [log DESIGN CHOICE 161] -/
def State.firstReady (s : State) : Option PortId :=
  (allPorts.filter (fun p => bitOf s.clk.ready p.val)).foldl (fun (best : Option PortId) p =>
    match best with
    | none => some p
    | some q => if s.clk.readySince[p] < s.clk.readySince[q] then some p else some q) none

/-- ROM begins again: from a ready port now, or at the next reference that becomes ready (R113). -/
def State.restartRom (s : State) : State :=
  match s.countRestart with
  | (t, false) => t
  | (t, true) =>
    match t.firstReady with
    | some p => t.beginRom p
    | none => { t with act := .none, cur := { t.cur with wait := .refRom } }

/-! ### The end of an activity -/

/-- Post a CLK command's result (Table 3.7). -/
def State.clkPost (s : State) (r : CmdResult) (source : BitVec 4) : State :=
  { s with clk := { s.clk with result := r, source := source, seq := s.clk.seq + 1 } }

/-- A planned switch posts the DONE it owes as the clocks restart (R60). -/
def State.postSwitch (s : State) : State :=
  if s.clk.switchOwed then ({ s with clk := { s.clk with switchOwed := false } } : State).clkPost .done 0 else s

/-- Service begins (Table 5.1): the READY notice, then the request writes that waited are captured. -/
def State.toReady (s : State) : State :=
  let s := s.enterStage .ready
  let mode := match s.cur.mode with
    | .normal => 0 | .blank => 1 | .plain => 2
  let s := s.ownerNotice 0x01 (leBytes 4 s.inv.tag.toNat ++ leBytes 1 mode)
  s.captureWaiting.settle

/-- The wafer runs again: paused trim steps go on, trims are evaluated, a frequency request that was owed posts DONE
(R105), the fabric settles. -/
def State.endActivity (s : State) : State :=
  let s := { s with act := .none }
  let s := if s.clk.freqOwed then ({ s with clk := { s.clk with freqOwed := false } } : State).clkPost .done 1 else s
  let s := s.railFolios.foldl (fun t f => if (t.folio f).railDone then t.trimSettled f else t) s
  let s := s.trimAll.pumpBuses.updateFractions.flashNext
  if s.cur.stage == .codex && s.cdx.load.isNone && s.mbx.relinq.isNone then s.toReady
  else if s.isReady then s.captureWaiting.settle
  else s.settle

/-- A frequency change begins (R72): for a rise the rails move first. -/
def State.beginFreq (s : State) : State :=
  if s.clk.target.toNat < s.clk.freq.toNat then
    let t : State := { s with act := .freqChange .railsFirst }
    let t := t.moveRails (fun x => nominal t.clk.target x.adopted)
    if t.railsDone then { t with act := .freqChange .relock } else t
  else { s with act := .freqChange .relock }

/-- RAISE begins: the frequency rises to the code in CLK.FREQ_REQ.TARGET as R72 says, each folio adopts its trim, and the
meters are calibrated again (Table 5.1). [log DEDUCED 100] -/
def State.beginRaise (s : State) : State :=
  let s : State := { s with pwr := { s.pwr with calibrating := true } }
  if s.clk.target = s.clk.freq then
    let t := ({ s with act := .freqChange .railsLast } : State).moveRails (fun x => nominal s.clk.freq x.adopted)
    if t.railsDone then t.endActivity else t
  else s.beginFreq

/-- A resumption has ended: the wafer counts as resumed (R65, R100). -/
def State.resumed (s : State) (alert : Bool) : State :=
  let s := if alert then s.ownerNotice 0x06 (leBytes 1 2 ++ leBytes 1 s.pwr.asserted.toNat) else s
  s.endActivity

/-- The rails of a step have settled: the activity goes on (R65, R72, R98, R100, R103). [log DEDUCED 81] -/
def State.advance (s : State) : State :=
  if !s.railsDone then s
  else match s.act with
    | .freqChange .railsFirst => { s with act := .freqChange .relock }
    | .freqChange .railsLast => s.endActivity
    | .freqChange .safe => { s with act := .freqChange .relock500 }
    | .deadResume .rails =>
      if s.pwr.asserted ≠ 0 then s.enterLatched
      else if s.clk.alertHeld then { s with act := .alert, clk := { s.clk with alertHeld := false } }
      else { s with act := .deadResume .pll500 }
    | .alertResume .rails => { s with act := .alertResume .pll500 }
    | .deadResume .trim => s.resumed false
    | .alertResume .trim => s.resumed true
    | _ => s.tryClocks

/-- The last step of a resumption: trims adopted again, and the rails move to their setpoints. [log DEDUCED 64] -/
def State.resumeTrim (s : State) (alert : Bool) : State :=
  let ph := if alert then Activity.alertResume .trim else Activity.deadResume .trim
  (({ s with act := ph } : State).trimAdopt).advance

/-- The meters await their calibration at the frequency in force (R83, R65 step 5, R100 step 6). -/
def State.resumeCalib (s : State) (alert : Bool) : State :=
  let ph := if alert then Activity.alertResume .calib else Activity.deadResume .calib
  { s with act := ph, pwr := { s.pwr with calibrating := true } }

/-- A resumption begins with the rails (R65 step 2, R100 step 1). -/
def State.beginResume (s : State) (alert : Bool) : State :=
  let ph := if alert then Activity.alertResume .rails else Activity.deadResume .rails
  ((({ s with act := ph, cur := { s.cur with heartbeat := s.ext } } : State).trimZero).moveRails (fun _ => safeSetpoint)).advance

/-! ### The work of a resumption -/

/-- Requests in flight end ABORTED_RETRY, and each reader affected has a notice (R65, R100). -/
def State.abortInFlight (s : State) : State :=
  let open_ := s.openPasses
  let readers := (open_.map (fun p => p.req.reader)).eraseDups
  let t := s.bayIds.foldl (fun t b => t.endBayNow b (t.aborted 4)) s
  readers.foldl (fun t r =>
    let accs := (open_.filter (fun p => p.req.reader == r)).map (fun p => p.acc.toNat)
    t.notice r 0x05 (leBytes 8 (accs.foldl min (accs.headD 0)) ++ leBytes 4 accs.length)) t

/-- The folio PLLs run at 500 MHz: requests end, and after an alert the bookmarks go and the bays are reloaded. -/
def State.resume500 (s : State) (alert : Bool) : State :=
  let s := ({ s with clk := { s.clk with freq := 3, pllsRun := true } } : State).postSwitch.retrainLinks
  let s := s.abortInFlight
  let s := s.bayIds.foldl (fun t b =>
    if alert then (t.modBay b (fun x => { x with bookmarks := [] })).rewriteSlots b
    else t.modBay b (fun x => { x with warm := false })) s
  let s := s.bayIds.foldl (fun t b => t.modBay b (fun x =>
    if x.phase = .refreshing then { x with phase := .idle } else x)) s
  let s := if alert then s
    else ({ s with clk := { s.clk with evResumed := true } } : State).referenceNotice 4 s.clk.active 0
  if s.clk.target = 3 then s.resumeCalib alert
  else { s with act := if alert then .alertResume .pllTarget else .deadResume .pllTarget }

/-- The wafer leaves an alert freeze, or start-up an alert wait (R99, R100, R112, R113). -/
def State.leaveAlert (s : State) : State :=
  let s := { s with pwr := { s.pwr with clearSince := none } }
  if s.cur.wait = .alertPower then
    let t : State := { s with cur := { s.cur with wait := .none } }
    match t.firstReady with
    | some p => t.beginRom p
    | none => t
  else match s.act with
    | .alert =>
      if s.cur.stage.early then s.restartRom
      else if s.cur.stage.bound then s.restartClocks
      else s.beginResume true
    | _ => s

/-- The active reference is lost (R62, R63, R98, R112, R113). [log DEDUCED 81] -/
def State.loseActive (s : State) : State :=
  let sb := s.clk.standby
  let lost := s.clk.active
  let next : Option PortId := if h : sb.toNat < 8 then (if bitOf s.clk.ready sb.toNat then some ⟨sb.toNat, h⟩ else none)
    else none
  let switch (p : PortId) : State :=
    (({ s with clk := { s.clk with active := p, standby := 0xF, ppmValid := 0 } } : State)).failoverReport lost
  if s.cur.stage.early then
    match next with
    | some p => switch p
    | none =>
      let t : State := { s with clk := { s.clk with activeValid := false, ppmValid := 0 } }
      if t.act = .alert then t
      else match ({ t with act := .none } : State).countRestart with
      | (u, false) => u
      | (u, true) =>
        match u.firstReady with
        | some p => u.beginRom p
        | none => { u with cur := { u.cur with wait := .refRom } }
  else match next, s.act with
    | none, _ => s.enterDead
    | some p, .alert => switch p
    | some p, .alertResume _ => (switch p).beginResume true
    | some p, .deadResume _ => (switch p).beginResume false
    | some p, _ => s.enterFailover false p 0xF

end Sys2Proof.Machine
end

