-- ==== Sys2Proof/Machine/Bookplate.lean ====
section
/-! DEFINITION. Machine/Bookplate.lean: the bookplate (R405, R407, R408), its defaults, the clock choice of R57, and
field errata blocks of the flash (R404). -/

namespace Sys2Proof.Machine


/-- BODY_CRC at `at_` matches the bytes before it (R405). -/
def bodyOk (bs : List Byte) (at_ : Nat) : Bool := fieldAt bs at_ 4 == (crc32c (bs.take at_)).toNat
/-- COMMIT stands in the last four bytes (R405). -/
def committed (bs : List Byte) (at_ : Nat) : Bool := bytesAt bs at_ 4 == commitBytes

/-- Base of slot A (false) or B (true) (Table 17.4). -/
def slotBase (b : Bool) : Nat := if b then 0x20000 else 0x10000

/-- The bytes of a slot that Table 17.5 does not list. -/
def plateGaps : List (Nat × Nat) := [(6, 2), (21, 3), (38, 2), (45, 3), (62, 2), (129, 63), (448, 3636)]

/-- The fields of Table 17.5 with a set bit: set bit, offset, bytes, lowest and highest value. -/
def plateRanges : List (Nat × Nat × Nat × Nat × Nat) :=
  [(0, 16, 1, 0, 7), (1, 17, 1, 0, 7), (3, 19, 1, 0, 1), (4, 20, 1, 0, 3), (5, 24, 4, 0, 16777215),
   (6, 28, 2, 200, 2200), (7, 30, 1, 1, 100), (8, 31, 1, 1, 64), (9, 32, 2, 1, 330), (10, 34, 2, 1, 400),
   (12, 40, 4, 0, 1000000), (13, 44, 1, 0, 1), (14, 48, 4, 0, 0xFFFFFFFE)]

/-- The catalogue shape and coordinates obey R366. -/
def catalogueOk (bs : List Byte) : Bool :=
  let v (i : Nat) : Nat := fieldAt bs (56 + i) 1
  decide (1 ≤ v 0 ∧ v 0 ≤ 16 ∧ 1 ≤ v 1 ∧ v 1 ≤ 16 ∧ 1 ≤ v 2 ∧ v 2 ≤ 8 ∧ v 3 < v 0 ∧ v 4 < v 1 ∧ v 5 < v 2)

/-- A slot image meets R407, BODY_CRC and COMMIT apart. -/
def plateFormat (bs : List Byte) : Bool :=
  let set := fieldAt bs 8 8
  let isSet (n : Nat) : Bool := natBits set n 1 == 1
  let keys := fieldAt bs 128 1
  let seq := fieldAt bs 4088 4
  bytesAt bs 0 4 == [0x50, 0x5A, 0x42, 0x50] && fieldAt bs 4 2 == 1 && decide (set < 2 ^ 18) &&
    plateGaps.all (fun g => allZero (bytesAt bs g.1 g.2)) &&
    plateRanges.all (fun r => !isSet r.1 || decide (r.2.2.2.1 ≤ fieldAt bs r.2.1 r.2.2.1 ∧
      fieldAt bs r.2.1 r.2.2.1 ≤ r.2.2.2.2)) &&
    (!isSet 2 || decide (fieldAt bs 18 1 ≤ 7) || fieldAt bs 18 1 == 0xF) &&
    (!isSet 16 || catalogueOk bs) &&
    (!isSet 17 || (bytesAt bs 64 64).all (fun b => decide (b.toNat ≤ 4))) &&
    decide (keys ≤ 8) && allZero (bytesAt bs (192 + 32 * keys) (256 - 32 * keys)) &&
    decide (1 ≤ seq ∧ seq ≤ 0xFFFFFFFE)

/-- A slot passes R405. -/
def plateWritten (bs : List Byte) : Bool := bodyOk bs 4084 && committed bs 4092
/-- A slot is valid (R405, R407). -/
def plateValid (bs : List Byte) : Bool := plateWritten bs && plateFormat bs

/-- The values of Table 17.5 in force: the bookplate's where its set bit is set, else the imprint's. -/
structure Plate where
  owner     : Nat := 0
  clock     : Nat := 0
  standby   : Nat := 0xF
  strict    : Bool := false
  freq      : Nat := 0
  dimIdle   : Nat := 5000
  cap       : Nat := 2200
  capWindow : Nat := 10
  railWindow : Nat := 8
  railFolio : Nat := 330
  railStacks : Nat := 400
  alertHold : Nat := 10000
  hold      : Nat := 2000
  autoload  : Bool := false
  floor     : Nat := 0
  catId     : Nat := 0
  shape     : BitVec 11 := 0
  coord     : BitVec 11 := 0
  trim      : List Nat := []
  keys      : List (List Byte) := []
  seq       : Nat := 0
  set       : Nat := 0
deriving DecidableEq, Repr

/-- The keys enrolled in a slot image. -/
def plateKeys (bs : List Byte) : List (List Byte) :=
  (List.range (fieldAt bs 128 1)).map (fun k => bytesAt bs (192 + 32 * k) 32)

/-- The values a valid slot gives. -/
def plateOf (bs : List Byte) : Plate :=
  let set := fieldAt bs 8 8
  let d : Plate := {}
  let get (n off len dflt : Nat) : Nat := if natBits set n 1 = 1 then fieldAt bs off len else dflt
  let v (i : Nat) : Nat := fieldAt bs (56 + i) 1
  { owner := get 0 16 1 d.owner, clock := get 1 17 1 d.clock, standby := get 2 18 1 d.standby,
    strict := get 3 19 1 0 == 1, freq := get 4 20 1 d.freq, dimIdle := get 5 24 4 d.dimIdle, cap := get 6 28 2 d.cap,
    capWindow := get 7 30 1 d.capWindow, railWindow := get 8 31 1 d.railWindow, railFolio := get 9 32 2 d.railFolio,
    railStacks := get 10 34 2 d.railStacks, alertHold := get 11 36 2 d.alertHold, hold := get 12 40 4 d.hold,
    autoload := get 13 44 1 0 == 1, floor := get 14 48 4 d.floor, catId := get 15 52 4 d.catId,
    shape := if natBits set 16 1 = 1 then waferAt (v 0 - 1) (v 1 - 1) (v 2 - 1) else 0,
    coord := if natBits set 16 1 = 1 then waferAt (v 3) (v 4) (v 5) else 0,
    trim := if natBits set 17 1 = 1 then (bytesAt bs 64 64).map (fun b => b.toNat) else [],
    keys := plateKeys bs, seq := fieldAt bs 4088 4, set := set }

/-- The slot image in force, where there is one (NVS.STATE.SLOT). -/
def State.plateBytes (s : State) : Option (List Byte) :=
  match s.nvs.slot.toNat with
  | 0 => some (s.flashRead (slotBase false) 4096)
  | 1 => some (s.flashRead (slotBase true) 4096)
  | _ => none
/-- The values in force. -/
def State.plate (s : State) : Plate :=
  match s.plateBytes with
  | none => {}
  | some bs => plateOf bs

/-- The slot in force at BOOKPLATE: the valid one with the higher SEQ, A at equality; 2 none (R408). -/
def slotInForce (a b : List Byte) : BitVec 2 :=
  if plateValid a then (if plateValid b && decide (fieldAt a 4088 4 < fieldAt b 4088 4) then 1 else 0)
  else if plateValid b then 1 else 2

/-- Load the registers of Table 17.5 from the values in force. -/
def State.loadPlate (s : State) (p : Plate) : State :=
  let clk := { s.clk with
    target := BitVec.ofNat 2 p.freq, dimIdle := BitVec.ofNat 24 p.dimIdle, strict := p.strict, freqOwed := false }
  let pwr := { s.pwr with
    cap := BitVec.ofNat 12 p.cap, capWindow := BitVec.ofNat 7 p.capWindow, railWindow := BitVec.ofNat 7 p.railWindow,
    folioA := BitVec.ofNat 9 p.railFolio, stacksA := BitVec.ofNat 9 p.railStacks, hold := BitVec.ofNat 16 p.alertHold }
  let t : State := { s with
    clk := clk, pwr := pwr,
    portRegs := { s.portRegs with owner := Fin.ofNat 8 p.owner, hold := BitVec.ofNat 20 p.hold },
    cdx := { s.cdx with floor := BitVec.ofNat 32 p.floor },
    lnk := { s.lnk with catId := BitVec.ofNat 32 p.catId, shape := p.shape, coord := p.coord },
    nvs := { s.nvs with keys := p.keys, seq := BitVec.ofNat 32 p.seq, set := BitVec.ofNat 64 p.set } }
  t.mapFolios (fun f x => { x with req := BitVec.ofNat 3 ((p.trim[f.val]?).getD 0) })

/-- The active reference moves; every offset is measured anew (R56). -/
def Clk.setActive (c : Clk) (p : PortId) : Clk :=
  if c.active = p ∧ c.activeValid then c else { c with active := p, activeValid := true, ppmValid := 0 }
/-- A port number names a ready port. -/
def Clk.portReady (c : Clk) (n : Nat) : Bool := decide (n < 8) && bitOf c.ready n

/-- The curator arms the bookplate's standby only if it is ready and not the active port (R57). -/
def Clk.arm (c : Clk) (standby : Nat) : Clk :=
  if c.portReady standby && decide (standby ≠ c.active.val) then { c with standby := BitVec.ofNat 4 standby }
  else { c with standby := 0xF }

/-- R57: the clock port, else the standby port, else the first-ready port or the wait of the strict bit; none means
that the curator waits. -/
def Clk.choose (c : Clk) (p : Plate) : Option Clk :=
  if c.portReady p.clock then some ((c.setActive (Fin.ofNat 8 p.clock)).arm p.standby)
  else if c.portReady p.standby then some ((c.setActive (Fin.ofNat 8 p.standby)).arm p.standby)
  else if p.strict then none
  else some ({ c with evFallback := true } |>.arm p.standby)

/-- Apply R57, and end the stage where it need not wait: the rails stand at the safe setpoint, and CLOCKS begins.
[log DEDUCED 85, 96] -/
def State.applyClocks (s : State) : State :=
  match s.clk.choose s.plate with
  | some c => ({ s with clk := c } : State).towardClocks
  | none => { s with cur := { s.cur with wait := .strictPort } }

/-! ### Field errata (R123 to R125, R404) -/

/-- An errata entry as 8 bytes (Table 5.2). -/
def errataNat (e : ErrataEntry) : Nat :=
  e.kind.toNat + e.folio.val * 2 ^ 4 + e.a.toNat * 2 ^ 10 + e.b.toNat * 2 ^ 17 + e.c.toNat * 2 ^ 24 +
    e.d.toNat * 2 ^ 28 + e.start.toNat * 2 ^ 32 + e.source.toNat * 2 ^ 62
/-- An errata entry from its 8 bytes. -/
def errataOf (v : Nat) : ErrataEntry :=
  { kind := BitVec.ofNat 4 v, folio := Fin.ofNat 64 (natBits v 4 6), a := BitVec.ofNat 7 (natBits v 10 7),
    b := BitVec.ofNat 7 (natBits v 17 7), c := BitVec.ofNat 4 (natBits v 24 4), d := BitVec.ofNat 4 (natBits v 28 4),
    start := BitVec.ofNat 16 (natBits v 32 16), source := BitVec.ofNat 2 (natBits v 62 2) }

/-- A block is valid: committed, BODY_CRC right, and a count in range. -/
def errataValid (bs : List Byte) : Bool :=
  bodyOk bs 4088 && committed bs 4092 && decide (1 ≤ fieldAt bs 0 2 ∧ fieldAt bs 0 2 ≤ 510)
/-- The entries of a block. -/
def errataEntries (bs : List Byte) : List ErrataEntry :=
  (List.range (fieldAt bs 0 2)).map (fun i => { errataOf (fieldAt bs (8 + 8 * i) 8) with source := 1 })
/-- The blocks that are not erased, up to the last, and the valid ones among them. -/
def State.errataBlocks (s : State) : List (List Byte) :=
  ((List.range 48).map s.errataBlock).filter errataValid
/-- A block's bytes (R404). -/
def errataBytes (es : List ErrataEntry) (epoch : BitVec 16) (tag : Word) : List Byte :=
  let head := leBytes 2 es.length ++ leBytes 2 epoch.toNat ++ leBytes 4 tag.toNat
  let body := bytesAt (head ++ es.flatMap (fun e => leBytes 8 (errataNat { e with source := 1 }))) 0 4088
  body ++ leBytes 4 (crc32c body).toNat ++ commitBytes

/-! ### Slots written (R405, R409), and what RELINQUISH leaves of the flash (R455, R456) -/

/-- The slot not in force: A where none is in force. -/
def State.spareSlot (s : State) : Bool := s.nvs.slot == 0
/-- Write a slot image into a slot: erase, body, BODY_CRC, SEQ, COMMIT (R405). -/
def plateSteps (slotB : Bool) (img : List Byte) : List FlashStep :=
  .erase (slotBase slotB) 65536 :: objectSteps (slotBase slotB) (img.take 4092 ++ commitBytes) 4084

/-- The binding is relinquished: the last committed checkpoint carries CLOSE (R456). [log DEDUCED 129] -/
def State.relinquished (s : State) : Bool := s.led.closed && natBits (fieldAt s.led.lastCp 84 1) 1 1 == 1

/-- The slot image of step 3: no key, SEQ one higher. -/
def closedPlate (bs : List Byte) : List Byte :=
  let body := bytesAt bs 0 128 ++ [0] ++ bytesAt bs 129 63 ++ List.replicate 256 0 ++ bytesAt bs 448 3636
  body ++ leBytes 4 (crc32c body).toNat ++ leBytes 4 (fieldAt bs 4088 4 + 1) ++ leBytes 4 0
/-- Erase a span, one sector at a time. -/
def eraseSteps (off len : Nat) : List FlashStep :=
  (List.range ((len + 65535) / 65536)).map (fun i => .erase (off + 65536 * i) 65536)
/-- The steps that clear the codex store: its trailer first. -/
def clearSteps : List FlashStep := .erase 0x60000 65536 :: eraseSteps 0x1000000 (2 ^ 25)

/-- Step 3 of R455 begins: the inactive slot without keys, the other slot erased, the codex store cleared. A slot
without keys that stands already is not written again. [log DEDUCED 130] -/
def State.relinquishFlash (s : State) : State :=
  let t : State := { s with mbx := { s.mbx with relinq := some .bookplate } }
  match s.plateBytes with
  | none => t.flashStart (.relinquish none) clearSteps
  | some bs =>
    if fieldAt bs 128 1 = 0 then
      t.flashStart (.relinquish none) (.erase (slotBase s.spareSlot) 65536 :: clearSteps)
    else t.flashStart (.relinquish (some s.spareSlot))
      (plateSteps s.spareSlot (closedPlate bs) ++ .erase (slotBase !s.spareSlot) 65536 :: clearSteps)

end Sys2Proof.Machine
end

