-- ==== Sys2Proof/Machine/Rebind.lean ====
section
/-! DEFINITION. Machine/Rebind.lean: votes (R120, R121), the logical grid and withdrawal (R34, R35, R37, R39, R44 to
R46, R126), the edition tag (R127) and the smallest service (R128). -/

namespace Sys2Proof.Machine

/-! ### Votes -/

/-- The four votes for a carrel in a round: the vote of a voter judged faulty is the librarian's own. -/
def voteTally (bad : List (FolioId × Nat × Nat)) (v : VoteRow) : Nat :=
  let vote (dr dc : Int) (own : Bool) : Nat :=
    let r := (v.pr : Int) + dr
    let c := (v.pc : Int) + dc
    b2n (if bad.any (fun q => q.1 == v.folio && (q.2.1 : Int) == r && (q.2.2 : Int) == c) then v.libr else own)
  vote 0 (-1) v.outward + vote 0 1 v.inward + vote (-1) 0 v.north + vote 1 0 v.south

/-- The carrels judged faulty in a round: fewer than 3 votes pass (R121). [log DEDUCED 106] -/
def voteRound (rows : List VoteRow) (bad : List (FolioId × Nat × Nat)) : List (FolioId × Nat × Nat) :=
  (rows.filter (fun v => decide (voteTally bad v < 3))).map (fun v => (v.folio, v.pr, v.pc))

/-- The judgement: rounds until none changes; a carrel whose judgement still changes in round 4 is faulty.
[log DEDUCED 106] -/
def judge (rows : List VoteRow) : List (FolioId × Nat × Nat) :=
  let f1 := voteRound rows []
  let f2 := voteRound rows f1
  let f3 := voteRound rows f2
  let f4 := voteRound rows f3
  if f2 = f1 then f1 else if f3 = f2 then f2 else f3 ++ f4.filter (fun q => !f3.contains q)

/-- An entry of an inventory, found at this start and not stored. -/
def newEntry (kind : Nat) (f : FolioId) (a b c d : Nat) : ErrataEntry :=
  { kind := BitVec.ofNat 4 kind, folio := f, a := BitVec.ofNat 7 a, b := BitVec.ofNat 7 b, c := BitVec.ofNat 4 c,
    d := BitVec.ofNat 4 d, start := 0, source := 2 }
/-- The unit two entries name is the same. -/
def sameUnit (e g : ErrataEntry) : Bool :=
  e.kind == g.kind && e.folio == g.folio &&
    (e.kind == 5 || (e.a == g.a && e.b == g.b && e.c == g.c && e.d == g.d))

/-- The units an inventory found faulty (R120 to R122). [log DEDUCED 106] -/
def inventoryFound (r : InventoryReport) : List ErrataEntry :=
  (judge r.votes).map (fun q => newEntry 1 q.1 q.2.1 q.2.2 0 0) ++
    (r.pairs.filter (fun p => !(p.endA && p.endB))).map (fun p => { p.entry with start := 0, source := 2 }) ++
    r.sites.map (fun e => { e with start := 0, source := 2 }) ++ r.librarians.map (fun f => newEntry 5 f 4 1 0 0) ++
    r.channels.map (fun ch => newEntry 6 (faceFolio (ch.val / 8)) (ch.val % 128) (ch.val / 128) 0 0)

/-- Entries not already named, each unit once (R123). -/
def addNew (known new : List ErrataEntry) : List ErrataEntry :=
  new.foldl (fun acc e => if (known ++ acc).any (sameUnit e) then acc else acc ++ [e]) []

/-! ### Withdrawal (R39, R44 to R46) -/

/-- The causes of Table 5.6 that withdraw a folio before bundles are judged. -/
def withdrawCauses (es : List ErrataEntry) (f : FolioId) : List Nat :=
  let own := es.filter (fun e => e.folio == f)
  (if (List.range 68).any (fun r => decide (5 ≤ (faultyPcs own f r).length)) then [1] else []) ++
    (if own.any (fun e => e.kind == 2 && linkNeeded own e) then [2] else []) ++
    (if (List.range 17).any (fun b => decide (2 ≤ (faultySites own f b).length)) then [3] else []) ++
    (own.filter (fun e => e.kind == 5)).map (fun e => e.a.toNat)

/-- The folio an east (0) or south (1) boundary joins a folio to. -/
def beyond (f : FolioId) (side : Nat) : Option FolioId :=
  if side = 0 then (if folioX f < 7 then some (folioAt (folioX f + 1) (folioY f)) else none)
  else if folioY f < 7 then some (folioAt (folioX f) (folioY f + 1)) else none

/-- The folios withdrawn by a failed bundle, larger numbers rising, then smaller (R39). -/
def bundleWithdrawn (es : List ErrataEntry) (gone : List FolioId) : List FolioId :=
  let pairs : List (FolioId × FolioId) := allFolios.flatMap (fun g =>
    (if 0 < folioY g then
      (let f := folioAt (folioX g) (folioY g - 1)
       if boundaryFailed es f 1 then [(f, g)] else []) else []) ++
    (if 0 < folioX g then
      (let f := folioAt (folioX g - 1) (folioY g)
       if boundaryFailed es f 0 then [(f, g)] else []) else []))
  pairs.foldl (fun acc fg =>
    if (gone ++ acc).contains fg.1 || (gone ++ acc).contains fg.2 then acc else acc ++ [fg.2]) []

/-- A failed routed-plane bundle lies on one of a folio's four sides (R45). -/
def routedSideFailed (es : List ErrataEntry) (f : FolioId) : Bool :=
  planeFailed es f 0 1 || planeFailed es f 1 1 ||
    (decide (0 < folioX f) && planeFailed es (folioAt (folioX f - 1) (folioY f)) 0 1) ||
    (decide (0 < folioY f) && planeFailed es (folioAt (folioX f) (folioY f - 1)) 1 1)

/-- A withdrawn folio is blocked (R45, Table 2.3). -/
def mustBlock (es : List ErrataEntry) (f : FolioId) (causes : List Nat) : Bool :=
  causes.contains 3 || causes.contains 4 || routedSideFailed es f ||
    es.any (fun e => e.kind == 5 && e.folio == f && e.b.getLsbD 0)

/-- A folio that a failed bundle has withdrawn (R39). -/
def State.bundleGone (s : State) (f : FolioId) : Bool := (s.folio f).cause == 5
/-- A folio whose withdrawal is settled: state, cause and counts; a blocked one has its clocks and its core rail held off
(R45). -/
def Folio.settle (x : Folio) (es : List ErrataEntry) (f : FolioId) (causes : List Nat) : Folio :=
  let st : FolioState := if causes.isEmpty then .present else if mustBlock es f causes then .blocked else .passThrough
  let x := { x with
    state := st, cause := BitVec.ofNat 4 (causes.foldl min (causes.headD 0)),
    faulty := BitVec.ofNat 9 ((List.range 68).map (fun r => (faultyPcs es f r).length)).sum,
    spares := BitVec.ofNat 12 (sparesInUse es f) }
  if st = .blocked then x.off else { x with clock := if x.clock = .off then .warm else x.clock }

/-- Withdrawal under the errata in force: every folio's state, cause and counts, and the masks (R44 to R46, R126).
`gone` names folios that a failed bundle has already withdrawn at this start: an edition only shrinks. -/
def State.withdraw (s : State) (gone : List FolioId) : State :=
  let es := s.errata
  let base := allFolios.map (fun f => (f, withdrawCauses es f))
  let other := (base.filter (fun q => !q.2.isEmpty)).map (fun q => q.1)
  let byBundle := gone ++ bundleWithdrawn es (other ++ gone)
  let t := base.foldl (fun (t : State) q =>
    t.modFolio q.1 (fun x => x.settle es q.1 (q.2 ++ (if byBundle.contains q.1 then [5] else [])))) s
  let mask (st : FolioState) : DWord :=
    allFolios.foldl (fun m f => setBit m f.val ((t.folio f).state == st)) 0
  { t with inv := { t.inv with present := mask .present, passMask := mask .passThrough } }

/-- The edition tag (R127). -/
def editionTag (present passMask : DWord) : Word :=
  BitVec.ofNat 32 (leNat ((sha256 (leBytes 8 present.toNat ++ leBytes 8 passMask.toNat)).take 4))

/-- Folios from `a` to `b` along a line, ends included. -/
def span (a b : Nat) : List Nat := if a ≤ b then (List.range (b - a + 1)).map (· + a) else (List.range (a - b + 1)).map (· + b)
/-- The folios a dimension-order route crosses, x first (R218). -/
def routeFolios (f g : FolioId) : List FolioId :=
  (span (folioX f) (folioX g)).map (fun x => folioAt x (folioY f)) ++
    (span (folioY f) (folioY g)).map (fun y => folioAt (folioX g) y)
/-- No folio of the route is blocked, in either direction. -/
def State.routeOpen (s : State) (f g : FolioId) : Bool :=
  (routeFolios f g ++ routeFolios g f).all (fun h => !s.isBlocked h)

/-- The units of Table 5.4 all pass (R128). [log DEDUCED 101] -/
def State.serves (s : State) : Bool :=
  let leaf (x : Nat) : Bool := decide (4 ≤ x)
  let port := s.clk.active
  s.clk.activeValid && bitOf s.clk.ready port.val && decide (4 ≤ port.val) == s.cur.leafB &&
    allFolios.any (fun f => s.present f && leaf (folioX f) == s.cur.leafB && s.routeOpen (portFolio port) f)

end Sys2Proof.Machine
end

