-- ==== Sys2Proof/Machine/Startup.lean ====
section
/-! DEFINITION. Machine/Startup.lean: the input, the start stages, the election, takeover and heartbeats (chapter 5,
R419, R421, R432 to R434). -/

namespace Sys2Proof.Machine

/-! ### The input (R432 to R434) -/

/-- What survives without power: flash, fuses, wear; and the world's own clock and what it has already seen.
[log DEDUCED 98] -/
def State.unpowered (s : State) (mv : Nat) : State :=
  { flash := s.flash, imprint := s.imprint, nvs := { wear := s.nvs.wear }, ext := s.ext, free := s.free,
    posted := s.posted, pending := s.pending, pwr := { inputMv := mv } }

/-- POWER_APPLIED: binding power-on; the POWER stage begins (R433). [log DESIGN CHOICE 12] -/
def execPowerApplied (mv : Nat) (s : State) : Out :=
  if !s.pwr.powered && decide (40000 ≤ mv ∧ mv ≤ 60000) then
    let t := s.unpowered mv
    .next { t with pwr := { t.pwr with powered := true } }
  else .next s

/-- No frame edge is waited for. -/
def State.pllsUnlocked (s : State) : State := { s with clk := { s.clk with lockWait := false } }

/-- Alert lines assert (R97, R98, R113). Where no reference clocks the inputs, they are sampled as ROM begins again.
[log DEDUCED 81] -/
def State.assertLines (s : State) (lines : BitVec 4) : State :=
  let clocked := s.tickRuns
  let p := { s.pwr with
    asserted := s.pwr.asserted ||| lines, latched := if clocked then s.pwr.latched ||| lines else s.pwr.latched,
    clearSince := none }
  let s := { s with pwr := p }
  if !s.pwr.powered then s
  else if s.cur.stage = .power then { s with cur := { s.cur with wait := .alertPower } }
  else if s.cur.wait = .refRom then s
  else match s.act with
    | .dead _ | .alert => s
    | .alertResume _ => ({ s.cancelSteps.pllsUnlocked with act := .alert } : State)
    | .failover .. =>
      if s.clk.alertHeld then s
      else ({ s.cancelSteps with clk := { s.clk with alertHeld := true } } : State).alertReport
    | _ => s.enterAlert

/-- INPUT_UNDERVOLTAGE: every regulator asserts its alert line and the wafer freezes (R97, R434).
[log DEDUCED 95; DESIGN CHOICE 155] -/
def execInputUndervoltage (mv : Nat) (s : State) : Out :=
  if s.pwr.powered && decide (mv ≤ 38000) then
    .next ((({ s with pwr := { s.pwr with inputMv := mv, lines := 0xF } } : State).warn 3).assertLines 0xF)
  else .next s

/-- REGULATOR_SHUTDOWN: every regulator shuts down; what is not held without power is lost (R434). -/
def execRegulatorShutdown (mv : Nat) (s : State) : Out :=
  if s.pwr.powered && decide (mv ≤ 34000) then .next (s.unpowered mv) else .next s

/-- INPUT_OVERVOLTAGE: the input is disconnected (R432). -/
def execInputOvervoltage (mv : Nat) (s : State) : Out :=
  if decide (62000 ≤ mv) then
    let t := s.unpowered mv
    .next { t with pwr := { t.pwr with disconnected := true } }
  else .next s

/-! ### ROM and ELECT (R114, R115) -/

/-- A stage has ended its work while no freeze or takeover stands and nothing is waited for (R461).
[log DESIGN CHOICE 1] -/
def State.inStage (s : State) (g : Stage) : Bool :=
  s.cur.stage == g && s.cur.wait == .none && s.act == .none && s.pwr.powered && !s.cur.lost && !s.cur.taking

/-- Ticks since the stage in force was entered. -/
def State.inStageFor (s : State) : Nat := (s.clk.tick - s.cur.entered).toNat

/-- A host port of a leaf has a ready reference. -/
def State.leafReady (s : State) (b : Bool) : Bool :=
  allPorts.any (fun p => decide (4 ≤ p.val) == b && bitOf s.clk.ready p.val)

/-- Whether a curator is eligible (R114); a deposed one is held in reset (R117). -/
def State.eligible (s : State) (c : Curator) (r : CuratorReport) (b : Bool) : Bool :=
  !c.deposed && r.completed && r.selfCheck && r.imprintOk && r.powerGood && s.leafReady b

/-- The curator of a leaf presides, and BOOKPLATE begins. -/
def State.preside (s : State) (b standby : Bool) : State :=
  let t := s.enterStage .bookplate
  let cur := { t.cur with
    leafB := b, standby := standby, heartbeat := t.ext,
    curA := { t.cur.curA with claim := !b || t.cur.curA.claim },
    curB := { t.cur.curB with claim := b } }
  { t with cur := cur }

/-- ROM_END: eligibility is judged, and ELECT ends at once where leaf A's curator is eligible (R114).
[log DEDUCED 105] -/
def execRomEnd (a b : CuratorReport) (s : State) : Out :=
  if !s.inStage .rom then .next s
  else
    let late := decide (50000 < s.inStageFor)
    if !(a.completed && b.completed) && !late then .next s
    else
      let okA := s.eligible s.cur.curA a false
      let okB := s.eligible s.cur.curB b true
      let cur := { s.cur with
        curA := { s.cur.curA with romDone := a.completed, eligible := okA },
        curB := { s.cur.curB with romDone := b.completed, eligible := okB } }
      let t : State := { s with cur := cur }
      let t := if a.imprintOk || b.imprintOk then t
        else allPorts.foldl (fun u p => u.modPort p (fun x => { x with shadow := .imprintBad })) t
      if !okA && !okB then .next (t.halt .noCurator)
      else
        let t := t.enterStage .elect
        let t := allPorts.foldl (fun u p => u.modPort p (fun x => { x with shadow := .none })) t
        .next (if okA then t.preside false okB else t)

/-- ELECT_TIMEOUT: leaf A's claim wire has stayed deasserted for 1,000 ticks; an eligible leaf B claims (R114). -/
def execElectTimeout (s : State) : Out :=
  if s.inStage .elect && decide (1000 ≤ s.inStageFor) && !s.cur.curA.claim && s.cur.curB.eligible then
    .next (s.preside true false)
  else .next s

/-- NO_CURATOR_TIMEOUT: 200,000 ticks after the port's reference became ready no curator has entered ELECT: the port's
shadow shows HALTED with NO_CURATOR (R115). [log DEDUCED 105] -/
def execNoCuratorTimeout (p : PortId) (s : State) : Out :=
  if s.pwr.powered && bitOf s.clk.ready p.val && decide (s.clk.readySince[p] + 200000 ≤ s.ext) &&
      decide (s.cur.stage.code < 2) then
    .next (s.modPort p (fun x => { x with shadow := .noCurator }))
  else .next s

/-! ### BOOKPLATE to INVENTORY -/

/-- BOOKPLATE_END: the slot chosen, firmware started, the mode fixed, the registers loaded, the clock ports applied
(R57, R129, R408). `fwA` and `fwB`: the images verify. Where both do, the image last run is kept. [log DEDUCED 99] -/
def execBookplateEnd (flashOk fwA fwB : Bool) (s : State) : Out :=
  if !s.inStage .bookplate then .next s
  else
    let a := s.flashRead (slotBase false) 4096
    let b := s.flashRead (slotBase true) 4096
    let plain := !flashOk || !(fwA || fwB)
    let slot := if plain then 2 else slotInForce a b
    let torn (bs : List Byte) : Bool := !allErased bs && !plateValid bs
    let mode : Mode := if plain then .plain else if slot = 2 then .blank else .normal
    let nvs := { s.nvs with
      slot := slot, flashOk := flashOk, fwB := if fwA && fwB then s.nvs.fwB else fwB && !fwA,
      evNoFlash := s.nvs.evNoFlash || !flashOk, evTorn := s.nvs.evTorn || (flashOk && (torn a || torn b)) }
    let t : State := { s with nvs := nvs, cur := { s.cur with mode := mode } }
    .next ((t.loadPlate t.plate).applyClocks)

/-- INVENTORY_END: votes and tests settle; every SRAM and stacks cell is left zero (R109, R120 to R123). -/
def execInventoryEnd (rep : InventoryReport) (s : State) : Out :=
  if !s.inStage .inventory then .next s
  else
    let factory := s.imprint.factory
    let field := if s.cur.mode = .plain then [] else s.errataBlocks.flatMap errataEntries
    let inv := { s.inv with
      factory := factory, field := field, new := addNew (factory ++ field) (inventoryFound rep), valid := false }
    .next (({ s with inv := inv, carrels := [], homes := [], routers := [], net := [] } : State).enterStage .rebind)

/-- A peer link whose attach folio forwards, in a dimension of more than one wafer, starts training (R367). -/
def State.linkMayTrain (s : State) (l : LinkId) : Bool :=
  !s.isBlocked (linkFolio l) && decide (1 < ringSize s.lnk.shape (linkDir l / 2)) && !(s.link l).disable

/-- Links start training at the end of REBIND. -/
def State.trainLinks (s : State) : State :=
  allLinks.foldl (fun t l =>
    if t.linkMayTrain l then t.modLink l (fun k => { k with state := .training, stage := 1, retryAt := none })
    else t.modLink l (fun k => { k with state := .off, stage := 0 })) s

/-- Host ports and peer links whose attach folio is blocked, or that self-audit holds out, are out of service (R47). -/
def State.dropUnits (s : State) : State :=
  let s := allPorts.foldl (fun t p => if t.portInService p then t else t.portDown p) s
  allLinks.foldl (fun t l =>
    if t.isBlocked (linkFolio l) then t.modLink l (fun k => { k with state := .off, stage := 0, retryAt := none }) else t) s
/-- Withdraw under the errata in force, folios that a failed bundle withdrew before included; with no folio left start-up
halts, else the next stage begins (R126). -/
def State.rebound (s : State) (gone : List FolioId) (g : Stage) : State :=
  let t := (s.withdraw gone).dropUnits
  if t.inv.present = 0 then t.halt .noFolio else t.enterStage g

/-- REBIND_END (R126): the grid is bound, folios are withdrawn, peer links train, AUDIT begins. -/
def execRebindEnd (s : State) : Out :=
  if !s.inStage .rebind then .next s
  else
    let t := { s with inv := { s.inv with evNew := s.inv.evNew || !s.inv.new.isEmpty } }
    .next ((t.rebound [] .audit).trainLinks)

/-! ### AUDIT and CALIBRATE (R83, R126, R419, R421) -/

/-- The folios that failed bundles have withdrawn at this start. -/
def State.goneFolios (s : State) : List FolioId := allFolios.filter s.bundleGone

/-- Add folio entries for folios that a stage withdraws: B bit 0 where the folio is blocked. -/
def State.addFolioEntries (s : State) (cause : Nat) (fs : List (FolioId × Bool)) : State :=
  let known := s.inv.factory ++ s.inv.field ++ s.inv.new
  let es := fs.map (fun q => newEntry 5 q.1 cause (b2n (q.2 || mustBlock s.errata q.1 (withdrawCauses s.errata q.1))) 0 0)
  let new := addNew known es
  { s with inv := { s.inv with new := s.inv.new ++ new, evNew := s.inv.evNew || !new.isEmpty } }

/-- A folio entry already withdraws the folio: its audit and calibration are ignored (R126). -/
def State.hasFolioEntry (s : State) (f : FolioId) : Bool := s.errata.any (fun e => e.kind == 5 && e.folio == f)

/-- The counters of Tables 9.5 and 18.3 at zero (R419). -/
def Folio.zeroCounts (x : Folio) : Folio :=
  { x with dropTicket := 0, dropSys := 0, dropHdr := 0, dropRoute := 0, linkCe := 0, linkUe := 0, blocked := 0,
           pcrcFail := 0, capture := {}, sramCe := 0, sramUe := 0, stacksCe := 0, stacksUe := 0, bondRetry := 0,
           planeFlit := 0, planeFifo := 0, ctrlCrc := 0, payCrc := 0, replays := 0 }

/-- The committed checkpoints of the ring, by slot, and whether a torn one stands there. -/
def State.checkpointsFound (s : State) : List (Nat × List Byte) × Bool :=
  let slots := ((s.flash.filter (fun c => inSpan c.1 cpRingBase (256 * cpSlots))).map
    (fun c => (c.1 - cpRingBase) / 256)).eraseDups
  let all := slots.map (fun n => (n, s.flashRead (cpRingBase + 256 * n) 256))
  let good := all.filter (fun q => bodyOk q.2 248 && committed q.2 252)
  (good, decide (good.length < all.length))

/-- The committed checkpoint with the highest CP_SEQ (R400). -/
def State.lastCheckpoint (s : State) : Option (Nat × List Byte) :=
  s.checkpointsFound.1.foldl (fun best q =>
    match best with
    | none => some q
    | some o => if fieldAt o.2 8 8 < fieldAt q.2 8 8 then some q else some o) none

/-- The position in every alcove of the carrel that class 7 gives capture-clock shortening at this start: CP_SEQ of the last
committed checkpoint mod 16, 0 where there is none (R418). -/
def State.shorteningPos (s : State) : Nat :=
  match (if s.cur.mode == .plain then none else s.lastCheckpoint) with
  | none => 0
  | some q => fieldAt q.2 8 8 % 16
/-- The folios that fail a class: those that the report names, and for class 7 those of a carrel at the shortening position
whose detector missed the shortening. -/
def State.auditFails (s : State) (rep : AuditReport) : List (Fin 9 × FolioId) :=
  rep.folios ++ ((rep.shortened.filter (fun c => c.dport == s.shorteningPos)).map (fun c => ((7 : Fin 9), c.folio)))

/-- AUDIT_END: failed folios are withdrawn; a global checker of the presiding curator halts; a standby that fails is
not eligible. `curators` names class 11 to 14, and whether it failed on the standby. -/
def execAuditEnd (rep : AuditReport) (s : State) : Out :=
  if !s.inStage .audit then .next s
  else
    let fails := (s.auditFails rep).filter (fun q => !s.hasFolioEntry q.2)
    let fs := (fails.map (fun q => q.2)).eraseDups
    let bad (f : FolioId) (c : Fin 9) : Bool := fails.any (fun q => q.1 == c && q.2 == f)
    let standbyBad := rep.curators.any (fun q => q.2)
    let globalBad := rep.curators.any (fun q => !q.2)
    let failed : BitVec 16 := (List.range 16).foldl (fun m c =>
      setBit m c (fails.any (fun q => q.1.val == c) || (c == 9 && !rep.channels.isEmpty) ||
        (c == 10 && !rep.ports.isEmpty) || rep.curators.any (fun q => q.1.val + 11 == c))) 0
    let int := { s.int with
      failed := failed, done := true, pass := failed == 0, withdrawn := BitVec.ofNat 7 fs.length,
      ticks := satNat 32 s.inStageFor, folios := fs.foldl (fun m f => setBit m f.val true) 0,
      ports := rep.ports.foldl (fun m p => setBit m p.val true) 0, standby := standbyBad,
      channels := rep.channels.foldl (fun m c => setBit m c.val true) s.int.channels }
    let t : State := { s with int := int }
    let t := t.mapFolios (fun f x => { x.zeroCounts with
      auditFail := (List.finRange 9).foldl (fun m c => setBit m c.val (bad f c)) 0 })
    let t := rep.ports.foldl (fun u p => u.modPort p (fun x => { x with out := true })) t
    let t := t.addFolioEntries 6 (fs.map (fun f => (f, bad f 5 || bad f 6)))
    let chans := addNew t.errata (rep.channels.map (fun ch =>
      newEntry 6 (faceFolio (ch.val / 8)) (ch.val % 128) (ch.val / 128) 0 0))
    let t : State := { t with inv := { t.inv with new := t.inv.new ++ chans, evNew := t.inv.evNew || !chans.isEmpty } }
    let t : State := if standbyBad then { t with cur := { t.cur with standby := false } } else t
    if globalBad then .next (t.halt .globalChecker) else .next (t.rebound t.goneFolios .calibrate)

/-- A calibration gives a meter gain and offset only from two points with different readings. [log DEDUCED 163] -/
def calRowFailed (r : CalRow) : Bool :=
  match r.points with
  | none => true
  | some (a, b) => a.raw == b.raw
/-- The librarians hold the points of their calibrations (R83). -/
def State.calibrated (s : State) (rows : List CalRow) : State :=
  rows.foldl (fun t r =>
    match r.points with
    | none => t
    | some (a, b) => if calRowFailed r then t else t.modFolio r.folio (fun x => { x with calLow := a, calHigh := b })) s
/-- Folios whose calibration failed: each has a folio entry, and CALIB_FAIL is set (R83, R126). -/
def State.calibFailed (s : State) (rows : List CalRow) : State :=
  let fs := (((rows.filter calRowFailed).map (fun r => r.folio)).filter (fun f => !s.hasFolioEntry f)).eraseDups
  let t := s.addFolioEntries 7 (fs.map (fun f => (f, false)))
  { t with pwr := { t.pwr with evCalib := t.pwr.evCalib || !fs.isEmpty } }
/-- A calibration after a change of frequency ends: a folio that failed it is withdrawn, and what waited for it goes on
(R65 step 5, R83, R100 step 6). [log DEDUCED 163] -/
def State.recalibrated (s : State) (rows : List CalRow) : State :=
  let t := (s.calibrated rows).calibFailed rows
  let t := if rows.any calRowFailed then (t.withdraw t.goneFolios).dropUnits else t
  let t : State := { t with pwr := { t.pwr with calibrating := false } }
  if t.cur.stage = .raise ∧ t.inv.present = 0 then t.halt .noFolio
  else match t.act with
    | .deadResume .calib => t.resumeTrim false
    | .alertResume .calib => t.resumeTrim true
    | _ => t.settle
/-- The meters are being calibrated after a change of frequency: it stands, and the clocks run. -/
def State.calibWaits (s : State) : Bool :=
  s.pwr.calibrating && s.pwr.powered && !s.cur.taking && !s.cur.lost &&
    (match s.act with
     | .none | .deadResume .calib | .alertResume .calib => true
     | _ => false)

/-- The staging carrels are fixed: those of the lowest-numbered present folio of the presiding curator's leaf (R392). -/
def State.fixShelf (s : State) : State :=
  { s with led := { s.led with
      shelfFixed := true,
      shelfFolio := allFolios.find? (fun f => s.present f && decide (4 ≤ folioX f) == s.cur.leafB) } }

/-- CALIBRATE_END: the meters are calibrated; a folio whose calibration failed is withdrawn. In the CALIBRATE stage the
staging carrels are fixed and RAISE begins (R83, R392). [log DEDUCED 163] -/
def execCalibrateEnd (rows : List CalRow) (s : State) : Out :=
  if s.inStage .calibrate then
    let t := (s.calibrated rows).calibFailed rows
    let t := (t.rebound t.goneFolios .raise).fixShelf
    .next (if t.cur.stage = .raise then t.beginRaise else t)
  else if s.calibWaits then .next (s.recalibrated rows)
  else .next s

/-! ### RAISE (R125, R128, R400) -/

/-- Bytes 16 to 79 of an EPOCH_START or CLOSE record (Table 17.2). -/
def epochFields (prevSeq prevCount prevEpoch : Nat) (plain noPrior : Bool) (era : BitVec 16) : List Byte :=
  leBytes 8 prevSeq ++ leBytes 8 prevCount ++ leBytes 2 prevEpoch ++ leBytes 1 (b2n plain + 2 * b2n noPrior) ++
    leBytes 1 0 ++ leBytes 2 era.toNat

/-- Staging capacity: the shelf, and the ring where an archive works (R392). -/
def State.stagingCapacity (s : State) : Nat :=
  65536 + (if s.archiveWorks then 8388608 * ((List.range 256).filter s.channelInService).length else 0)

/-- The epoch of this start begins: EPOCH_START is appended and the start checkpoint formed (R400, R403). Records
still staged, and the drain ring, go on (R402). [log DEDUCED 121] -/
def State.startEpoch (s : State) : State :=
  let plain := s.cur.mode == .plain
  let found := if plain then none else s.lastCheckpoint
  let torn := !plain && s.checkpointsFound.2
  let cp := match found with
    | none => []
    | some q => q.2
  let c := fieldAt cp 6 2
  let epoch : BitVec 16 := if plain then 0xFFFF else if found.isNone then 0 else BitVec.ofNat 16 ((c + 1) % 65535)
  let era : BitVec 16 := if found.isNone then 0 else BitVec.ofNat 16 (fieldAt cp 86 2 + b2n (c == 0xFFFE))
  let led := { s.led with
    epoch := epoch, era := era, plain := plain, started := true, nextIndex := 0, nextCtr := 1,
    head := if found.isNone then List.replicate 32 0 else bytesAt cp 24 32, ring := s.archiveWorks,
    capacity := s.stagingCapacity, lastCp := cp, cpSeq := if found.isNone then 0 else BitVec.ofNat 64 (fieldAt cp 8 8 + 1),
    cpSlot := match found with
      | none => 0
      | some q => (q.1 + 1) % cpSlots,
    startCp := none, closed := s.cur.mode == .normal && natBits (fieldAt cp 84 1) 1 1 == 1, cpBusy := false,
    cpAgain := false, sinceCp := 0, cpTick := s.clk.tick }
  let t : State := { s with led := led, nvs := { s.nvs with evTornCp := s.nvs.evTornCp || torn } }
  let t := t.append
    { kind := 2, hashes := epochFields (fieldAt cp 8 8) (fieldAt cp 16 8) c plain (!plain && found.isNone) era,
      tAdmit := s.clk.tick }
  t.checkpoint true

/-- The new entries that fit are appended in blocks; a notice for each folio that has new entries (R125).
[log DEDUCED 100] -/
def State.storeErrata (s : State) : State :=
  let new := s.inv.new.map (fun e => { e with start := s.led.epoch })
  let first := s.errataNext
  let room := if s.cur.mode = .plain then 0 else min (16384 - s.inv.field.length) (510 * (48 - first))
  let stored := new.take room
  let left := new.drop room
  let changed := s.cur.mode != .plain &&
    (match s.errataBlocks.getLast? with
     | none => false
     | some bs => fieldAt bs 4 4 != s.inv.tag.toNat)
  let inv := { s.inv with
    new := stored.map (fun e => { e with source := 1 }) ++ left,
    evFull := s.inv.evFull || (s.cur.mode != .plain && !left.isEmpty), evChanged := s.inv.evChanged || changed }
  let t : State := { s with inv := inv }
  let t := (List.range ((stored.length + 509) / 510)).foldl (fun (u : State) i =>
    let bs := errataBytes ((stored.drop (510 * i)).take 510) s.led.epoch s.inv.tag
    u.flashStart (.errata bs) (objectSteps (0x30000 + 4096 * (first + i)) bs 4088)) t
  allFolios.foldl (fun u f =>
    let n := (new.filter (fun e => e.folio == f)).length
    if n = 0 then u else u.ownerNotice 0x03 (leBytes 1 f.val ++ leBytes 1 0 ++ leBytes 2 n)) t

/-- The CODEX stage begins: an auto-load, or READY (R128, R264); a binding found relinquished first completes steps 3
and 4 of R455 (R456). [log DEDUCED 101] -/
def State.codexStage (s : State) : State :=
  let t := s.enterStage .codex
  if t.relinquished then t.relinquishFlash
  else if !t.serves then
    ((t.cdxPost .noResource 0 0 0).ownerNotice 0x0D
      (leBytes 4 0 ++ leBytes 1 CmdResult.noResource.code ++ leBytes 1 0)).toReady
  else if t.plate.autoload then { t with cdx := { t.cdx with load := some { kind := .auto } } }
  else t.toReady

/-- Frequency and trim stand at their values, and the meters are calibrated there (Table 5.1). -/
def State.raised (s : State) : Bool :=
  s.clk.freq == s.clk.target && s.railsDone && s.railFolios.all (fun f => (s.folio f).trimTo.isNone) && !s.pwr.calibrating

/-- RAISE_END: frequency and trim stand at their values, the edition is fixed, field errata are appended, the epoch
begins (R125, R126, R400). [log DEDUCED 100; DESIGN CHOICE 12] -/
def execRaiseEnd (s : State) : Out :=
  if !s.inStage .raise || !s.raised then .next s
  else
    let t : State := { s with inv := { s.inv with tag := editionTag s.inv.present s.inv.passMask, valid := true } }
    .next t.startEpoch.storeErrata.codexStage

/-! ### Limits and heartbeats (R108, R117 to R119, R461) -/

/-- Limits of Table 5.1, in ticks. -/
def Stage.limit : Stage → Option Nat
  | .rom => some 50000 | .elect => some 10000 | .bookplate => some 5000000 | .clocks => some 5000
  | .inventory => some 2000000 | .rebind => some 500000 | .audit => some 1000000 | .calibrate => some 100000
  | .raise => some 500000 | .codex => some 50000000 | _ => none

/-- A wait that the limit of the stage does not count: for a named port (R57), for a reference (R113), or for the rails
before CLOCKS begins again (R112). -/
def Cur.unlimited (c : Cur) : Bool :=
  match c.wait with
  | .strictPort | .refRom => true
  | .safeRails => c.stage != .bookplate
  | _ => false
/-- STAGE_LIMIT: the stage has not ended when its elapsed ticks exceed its limit (R108); in ROM, neither curator has
completed it (R114). -/
def execStageLimit (s : State) : Out :=
  match s.cur.stage.limit with
  | none => .next s
  | some n =>
    if !s.cur.unlimited && decide (n < s.inStageFor) && !s.frozen && !s.cur.taking then
      .next (s.halt (if s.cur.stage = .rom then .noCurator else .stageLimit))
    else .next s

/-- What a takeover does once it is complete: the commands it may cut have posted BUSY already (R117, R118, R461).
[log DEDUCED 102] -/
def State.takeoverDone (s : State) : State :=
  let s := { s with cur := { s.cur with taking := false, takeover := true } }
  let s := (s.ownerNotice 0x04 (leBytes 1 (b2n s.cur.leafB))).releaseHeld
  if s.isReady then
    let s := match s.act with
      | .freqChange _ =>
        (({ s.pllsUnlocked with act := .freqChange .safe } : State).moveRails (fun _ => safeSetpoint)).advance
      | _ => s.pumpBuses.advance
    let s := if s.led.cpBusy then
        let l := { s.led with cpBusy := false, cpAgain := false, cpNext := s.led.cpCmd || s.led.cpNext,
                              rewrites := satInc s.led.rewrites }
        ({ s with led := l } : State).checkpoint s.led.startCp.isNone
      else s
    let s := s.flashNext
    s.settle
  else if s.cur.stage = .halted then s
  else match s.countRestart with
    | (t, false) => t
    | (t, true) => t.toBookplate

/-- The curators' clocks run: an active reference, and no freeze that stops them (R62, R63, R97). -/
def State.curatorRuns (s : State) : Bool :=
  s.pwr.powered && !s.cur.lost && s.tickRuns &&
    (match s.act with
     | .failover .. | .dead _ | .alert => false
     | _ => true)

/-- HEARTBEAT: the presiding curator is alive; a new one's first heartbeat ends its takeover.
[log DESIGN CHOICE 104] -/
def execHeartbeat (s : State) : Out :=
  if decide (2 ≤ s.cur.stage.code) && s.curatorRuns then
    let t : State := { s with cur := { s.cur with heartbeat := s.ext } }
    .next (if t.cur.taking then t.takeoverDone else t)
  else .next s

/-- Flash writes that a takeover leaves to go on: errata, the sector erased ahead, and what a RELINQUISH writes (R406,
R457). The others are cut: their commit word stays unwritten (R118, R414). [log DEDUCED 102] -/
def FlashJob.survives (j : FlashJob) : Bool :=
  match j.kind with
  | .errata _ | .ahead | .relinquish _ => true
  | _ => false
/-- A mailbox command that pauses, and does not end, at a takeover (R457). [log DEDUCED 102] -/
def Mbx.pauses (m : Mbx) : Bool := m.relinq.isSome
/-- What the depose does to the commands in progress and to the flash: mailbox, bookplate and NVS commands end BUSY
(R118, R414); a flash operation in progress completes, a commit word apart (R406). [log DEDUCED 102] -/
def State.deposed (s : State) : State :=
  let order := match s.mbx.running with
    | some .bookplateWrite | some .keyEnroll | some .keyRevoke => true
    | _ => false
  let s := if s.mbx.running.isSome && !s.mbx.pauses then
      let l := { s.led with cpCmd := false, cpNext := false }
      ({ s with led := l } : State).mbxPost .busy
    else s
  let flash := match s.nvs.jobs with
    | ⟨_, .program off bs :: _ :: _, _⟩ :: _ => if s.nvs.busy then s.flash.write Memory.erased off bs else s.flash
    | ⟨_, .erase off len :: _, _⟩ :: _ => if s.nvs.busy then s.flash.clear off len else s.flash
    | _ => s.flash
  let js := s.nvs.jobs.filter FlashJob.survives
  let n := { s.nvs with jobs := js, buf := [], busy := false, stopped := !js.isEmpty }
  let n := if n.cmd.isSome || order then { n with cmd := none, result := .busy, check := 0, rseq := n.rseq + 1 } else n
  { s with flash := flash, nvs := n }

/-- HEARTBEAT_TIMEOUT: the standby deposes the presiding curator and claims (R117). Commands in progress post BUSY;
objects being written to flash lose their commit word (R118, R269, R414). [log DESIGN CHOICE 104] -/
def execHeartbeatTimeout (s : State) : Out :=
  if s.cur.standby && !s.cur.taking && decide (3 ≤ s.cur.stage.code) && s.curatorRuns &&
      decide (s.cur.heartbeat + 400 ≤ s.ext) then
    let c := s.cur
    let cur := { c with
      leafB := !c.leafB, standby := false, taking := true,
      curA := { c.curA with deposed := c.curA.deposed || !c.leafB, claim := c.leafB },
      curB := { c.curB with deposed := c.curB.deposed || c.leafB, claim := !c.leafB } }
    let t : State := { s with cur := cur }
    let t := t.cdxAbandon
    .next t.deposed
  else .next s

/-- LIBRARIAN_HEARTBEAT_TIMEOUT: no librarian has had a heartbeat for 2,000 ticks: no standby is eligible, or the standby
has itself been lost, before or in its takeover. Every librarian stops its folio clocks; only a power-on ends this (R119).
[log DESIGN CHOICE 104] -/
def execLibrarianHeartbeatTimeout (s : State) : Out :=
  if decide (3 ≤ s.cur.stage.code) && s.curatorRuns && decide (s.cur.heartbeat + 2000 ≤ s.ext) then
    let t : State := { s with cur := { s.cur with lost := true, standby := false } }
    .next (allPorts.foldl (fun u p => u.modPort p (fun x => { x with shadow := .curatorLost })) t)
  else .next s

end Sys2Proof.Machine
end

