-- ==== Sys2Proof/Machine/Clock.lean ====
section
/-! DEFINITION. Machine/Clock.lean: the references, their choice and their loss, the PLLs, the fabric frequency and
the folio clock states (chapter 3). -/

namespace Sys2Proof.Machine

/-! ### Ready flags (R53 to R56) -/

/-- A dead freeze ends with a port that is ready (R64, R65), or start-up goes on from CLOCKS (R112).
[log DEDUCED 81] -/
def State.leaveDead (s : State) (p lost : PortId) : State :=
  let c := { s.clk with
    active := p, activeValid := true, standby := if p = lost then s.clk.standby else 0xF, ppmValid := 0 }
  let s : State := { s with clk := c }
  if s.cur.stage.bound then
    if s.pwr.asserted ≠ 0 then s.enterLatched
    else if s.clk.alertHeld then { s with act := .alert, clk := { s.clk with alertHeld := false } }
    else
      (({ s with clk := { s.clk with evResumed := true } } : State).referenceNotice 4 p 0).postSwitch.restartClocks
  else s.beginResume false

/-- The three conditions of a port as its detectors give them (R53). Its qualification PLL runs while its reference is
present (R51), and its offset is no longer valid once the reference is absent (R56). -/
def Clk.conditions (c : Clk) (p : PortId) (now : RefConditions) : Clk :=
  { c with
    present := setBit c.present p.val now.present, inWindow := setBit c.inWindow p.val now.inWindow,
    locked := setBit c.locked p.val now.locked, qualPll := if now.present then setBit c.qualPll p.val true else c.qualPll,
    ppmValid := if now.present then c.ppmValid else setBit c.ppmValid p.val false }

/-- REFERENCE_READY: the port's ready flag sets; what waits for a reference goes on (R53, R57, R64, R113).
[log DEDUCED 85] -/
def execReferenceReady (p : PortId) (s : State) : Out :=
  if !s.pwr.powered || bitOf s.clk.ready p.val then .next s
  else
    let c := s.clk.conditions p ⟨true, true, true⟩
    let t : State := { s with clk := { c with
      ready := setBit c.ready p.val true, readySince := c.readySince.set p.val s.ext } }
    match t.act with
    | .dead lost =>
      if p = lost ∨ p.val = t.clk.standby.toNat then .next (t.leaveDead p lost) else .next t
    | .none =>
      if t.cur.wait = .refRom then .next (t.beginRom p)
      else if t.cur.wait = .strictPort then
        if p.val = t.plate.clock ∨ p.val = t.plate.standby then .next t.applyClocks else .next t
      else if t.cur.stage = .power ∧ t.cur.wait = .none then .next (t.beginRom p)
      else .next t
    | _ => .next t

/-- READY_FLAG_CLEAR: a condition of R53 does not hold at a port: its bits show it, and its ready flag is clear. On the
active port the reference is lost; of the armed standby the owner is told; a port without a reference has its link down
(R52, R55, R61). [log DEDUCED 87] -/
def execReadyFlagClear (p : PortId) (now : RefConditions) (s : State) : Out :=
  if !s.pwr.powered || (now.present && now.inWindow && now.locked) then .next s
  else
    let was := bitOf s.clk.ready p.val
    let active := s.clk.activeValid && s.clk.active == p
    let armed := s.clk.standby.toNat == p.val
    let tell := was && (active || armed) && s.tickRuns
    let c := s.clk.conditions p now
    let c := { c with
      ready := setBit c.ready p.val false, evLost := if tell then setBit c.evLost p.val true else c.evLost }
    let t : State := { s with clk := c }
    let t := if tell then t.warn 4 else t
    let t := if now.present then t else t.portDown p
    if was && active then .next t.loseActive
    else if tell then .next (t.referenceNotice 1 p 0)
    else .next t

/-- PLL_STOP: a PLL whose input has been absent for 100 ticks is stopped (R51). -/
def execPllStop (u : PllUnit) (s : State) : Out :=
  match u with
  | .qualification p =>
    if bitOf s.clk.present p.val then .next s
    else .next { s with clk := { s.clk with
      qualPll := setBit s.clk.qualPll p.val false, locked := setBit s.clk.locked p.val false } }
  | .folio f => if s.tickRuns then .next s else .next (s.modFolio f (fun x => { x with pll := false }))

/-- PORT_PPM_WINDOW: a window of 100,000 ticks of a present reference ends (R56). [log DEDUCED 86] -/
def execPortPpmWindow (p : PortId) (offset : Word) (throughout : Bool) (s : State) : Out :=
  if !s.clk.activeValid || s.clk.active == p || !bitOf s.clk.present p.val then .next s
  else
    let off := if throughout then s.clk.ppmOffset.set p.val offset else s.clk.ppmOffset
    .next { s with clk := { s.clk with ppmOffset := off, ppmValid := setBit s.clk.ppmValid p.val throughout } }

/-! ### PLLs lock (R62, R65, R71, R72, R76, R103) -/

/-- The running folio PLLs are locked; those of folios that are Dark stay off unless they wake. -/
def State.pllsLock (s : State) : State :=
  s.mapFolios (fun _ x => if x.state = .blocked ∨ (x.clock = .dark ∧ x.waking = false) then x else { x with pll := true })

/-- The FIFO pointers of every folio whose PLL runs are reset (R71). -/
def State.resetFifos (s : State) : State := s.mapFolios (fun f x => if x.pll then x.resetFifos f else x)
/-- A folio that wakes from Dark is Warm once its FIFOs are reset (R76). [log DEDUCED 88] -/
def State.wakeLocked (s : State) : State :=
  s.mapFolios (fun _ x => if x.waking && x.pll then { x with waking := false, clock := .warm, idle := 0 } else x)

/-- CLOCKS ends: the folio PLLs run at 500 MHz (R108). -/
def State.clocksDone (s : State) : State :=
  let t := s.mapFolios (fun _ x => { x with pll := true, clock := .warm })
  (({ t with clk := { t.clk with freq := 3, pllsRun := true } } : State).resetFifos).enterStage .inventory

/-- The clocks restart at a frame edge, or the activity's next step begins. [log DEDUCED 81, 83] -/
def State.relocked (s : State) : State :=
  match s.act with
  | .failover planned lost _ =>
    let s : State := { s with cur := { s.cur with heartbeat := s.ext } }
    let s := if planned then s else s.failoverReport lost
    if s.clk.alertHeld then { s with act := .alert, clk := { s.clk with alertHeld := false } }
    else
      let s := s.postSwitch.retrainLinks
      if s.cur.stage.bound then s.restartClocks
      else if s.clk.freqOwed then
        (({ s with act := .freqChange .safe } : State).moveRails (fun _ => safeSetpoint)).advance
      else s.endActivity
  | .freqChange .relock =>
    let t : State := { s with clk := { s.clk with freq := s.clk.target }, pwr := { s.pwr with calibrating := true } }
    let t := t.moveRails (fun x => nominal t.clk.freq x.adopted)
    if t.railsDone then t.endActivity else { t with act := .freqChange .railsLast }
  | .freqChange .relock500 => ({ s with clk := { s.clk with freq := 3 } } : State).beginFreq
  | .deadResume .pll500 => s.resume500 false
  | .alertResume .pll500 => s.resume500 true
  | .deadResume .pllTarget => ({ s with clk := { s.clk with freq := s.clk.target } } : State).resumeCalib false
  | .alertResume .pllTarget => ({ s with clk := { s.clk with freq := s.clk.target } } : State).resumeCalib true
  | _ => s

/-- The folio PLLs have an input to lock to. -/
def State.pllsMayLock (s : State) : Bool := s.pwr.powered && s.clk.activeValid && !s.cur.lost && decide (4 ≤ s.cur.stage.code)

/-- The tick is a frame edge (R70). -/
def State.atFrameEdge (s : State) : Bool := s.clk.tick % 16 == 0
/-- What waits for a frame edge may go on: during a takeover only a failover does. [log DEDUCED 102] -/
def State.edgeMayRun (s : State) : Bool :=
  !s.cur.taking ||
    (match s.act with
     | .failover .. => true
     | _ => false)
/-- The frame edge after the PLLs have locked: the FIFO pointers are reset and the clocks restart (R62, R65, R71, R72,
R76); packets held before a folio that was Dark go on (R77). [log DEDUCED 162] -/
def State.frameEdge (s : State) : State :=
  let s : State := { s with clk := { s.clk with lockWait := false } }
  if s.cur.stage = .clocks then s.clocksDone
  else
    let t := s.resetFifos.wakeLocked.relocked
    if t.fabricRuns then t.pumpAll else t
/-- The PLLs have locked: the next frame edge is now, or is waited for. -/
def State.awaitEdge (s : State) : State :=
  if s.atFrameEdge && s.edgeMayRun then s.frameEdge else { s with clk := { s.clk with lockWait := true } }

/-- PLL_RELOCK_COMPLETE: the folio PLLs lock; at the next frame edge the FIFO pointers are reset and the clocks
restart. -/
def execPllRelockComplete (s : State) : Out :=
  if s.pllsMayLock && s.cur.stage != .clocks then .next s.pllsLock.awaitEdge else .next s

/-- CLOCKS_END: the folio PLLs are locked at 500 MHz; the stage ends at a frame edge (R71, R108). -/
def execClocksEnd (s : State) : Out := if s.inStage .clocks then .next s.awaitEdge else .next s

/-! ### The owner's commands (R58 to R60, R72, R76) -/

/-- A command of the CDX or BAY block is dropped: before READY, or with the curator lost (R111, R119). In a freeze it
posts BUSY, as R264 and R274 say of these commands, whatever R67 says of writes in general. [log DEDUCED 120] -/
def State.commandsDropped (s : State) : Bool := !s.isReady || s.cur.lost || !s.pwr.powered
/-- Register writes other than to CLK.REF_SELECT are dropped: a freeze, or before READY (R67, R111, R119).
[log DEDUCED 120] -/
def State.writesDropped (s : State) : Bool := !s.isReady || s.frozen || s.cur.lost || !s.pwr.powered

/-- The offset of a port against the active reference, in 0.001 ppm, where it is valid (R56). -/
def Clk.offsetOf (c : Clk) (p : PortId) : Option Int :=
  if p = c.active then (if c.activeValid then some 0 else none)
  else if bitOf c.ppmValid p.val then some c.ppmOffset[p].toInt else none
/-- The new standby follows the new active within 0.1 ppm (row 6 of Table 3.1). -/
def Clk.tracks (c : Clk) (standby active : PortId) : Bool :=
  match c.offsetOf standby, c.offsetOf active with
  | some a, some b => decide ((a - b).natAbs < 100)
  | _, _ => false

/-- A bay has a pass at work: starting, running, quiescing, shelving or refreshing (R74). -/
def Bay.busy (x : Bay) : Bool := x.phase != .idle || x.pass.isSome
/-- A bay is running: its BAY.STATE reads 4 (Table 12.7). [log DEDUCED 84] -/
def Bay.isRunning (x : Bay) : Bool := x.phase == .running || x.phase == .recalled

/-- Rows 1 to 6 of Table 3.1: the result that refuses a REF_SELECT write. [log DEDUCED 84] -/
def State.refSelectRefusal (s : State) (active standby : BitVec 4) (strict : Bool) : Option CmdResult :=
  let c := s.clk
  let a : PortId := Fin.ofNat 8 active.toNat
  let b : PortId := Fin.ofNat 8 standby.toNat
  let armed := standby != 0xF
  if s.act != .none || s.cur.lost || !c.activeValid then some .busy
  else if decide (8 ≤ active.toNat) || (decide (8 ≤ standby.toNat) && armed) then some .unknown
  else if !bitOf c.ready a.val || (armed && !bitOf c.ready b.val) then some .refusedNotReady
  else if standby == active then some .refusedState
  else if a != c.active && s.bayIds.any (fun i => (s.bay i).isRunning) then some .refusedState
  else if strict && armed && !c.tracks b a then some .refusedState
  else none

/-- REF_SELECT: a write of CLK.REF_SELECT is evaluated against Table 3.1 (R58 to R60). A switch before the folio PLLs
run costs no relock. [log DEDUCED 83, 84] -/
def execRefSelect (active standby : BitVec 4) (strict : Bool) (s : State) : Out :=
  if !s.pwr.powered then .next s
  else match s.refSelectRefusal active standby strict with
    | some r => .next (s.clkPost r 0)
    | none =>
      let a : PortId := Fin.ofNat 8 active.toNat
      let t : State := { s with clk := { s.clk with strict := strict } }
      if a = s.clk.active then .next (({ t with clk := { t.clk with standby := standby } } : State).clkPost .done 0)
      else if s.cur.stage.early || s.cur.stage == .power then
        .next (({ t with clk := { t.clk.setActive a with standby := standby } } : State).clkPost .done 0)
      else .next (({ t with clk := { t.clk with switchOwed := true } } : State).enterFailover true a standby)

/-- FREQ_REQ: a write of CLK.FREQ_REQ (R67, R72, R105, R111). -/
def execFreqReq (target : BitVec 2) (s : State) : Out :=
  if !s.isReady || s.cur.lost then .next s
  else match s.act with
    | .freqChange _ | .failover .. => .next (s.clkPost .busy 1)
    | .none =>
      if s.bayIds.all (fun b => (s.bay b).paused) then
        .next ({ s with clk := { s.clk with target := target, freqOwed := true } } : State).beginFreq
      else .next (s.clkPost .refusedState 1)
    | _ => .next s

/-- A bay of the codex in force is placed on a folio. A scheduled-plane route of a bay stays in its rectangle.
[log DEDUCED 88] -/
def State.folioUsed (s : State) (f : FolioId) : Bool := s.bayIds.any (fun b => (s.bayFolios b).contains f)

/-- FOLIO_DARK: a write of CLK.FOLIO_DARK; bits of withdrawn folios are ignored (R76). [log DEDUCED 88] -/
def execFolioDark (mask : DWord) (s : State) : Out :=
  if s.writesDropped then .next s
  else
    let new := mask &&& s.inv.present
    let set := allFolios.filter (fun f => bitOf new f.val && !bitOf s.clk.dark f.val)
    if set.any s.folioUsed then .next (s.clkPost .refusedState 2)
    else
      let t := s.mapFolios (fun f x =>
        if !s.present f then x
        else if bitOf new f.val then { x with clock := .dark, pll := false, waking := false, wakeHeld := false, idle := 0 }
        else if x.clock = .dark then { x with waking := true }
        else x)
      .next (({ t with clk := { t.clk with dark := new } } : State).clkPost .done 2)

/-! ### Dim and Dark (R74, R75, R77) -/

/-- A carrel of the folio belongs to a bay with a pass at work (R74). -/
def State.folioBusy (s : State) (f : FolioId) : Bool :=
  s.bayIds.any (fun b => (s.bay b).busy && (s.bayFolios b).contains f)

/-- DIM_FALL: a folio whose idle count exceeds CLK.DIM_IDLE falls from Warm to Dim; one that a packet woke returns to
Dark (R74, R77). [log DEDUCED 89] -/
def execDimFall (f : FolioId) (s : State) : Out :=
  let x := s.folio f
  if s.clk.dimIdle == 0 || decide (x.idle ≤ s.clk.dimIdle.toNat) || s.folioBusy f || !s.fabricRuns then .next s
  else if bitOf s.clk.dark f.val && (x.clock == .warm || x.clock == .dim) then
    .next (s.modFolio f (fun y => { y with clock := .dark, pll := false, wakeHeld := false, idle := 0 }))
  else if x.clock = .warm then .next (s.modFolio f (fun y => { y with clock := .dim }))
  else .next s

/-- Something wants a bay: a pass, a candidate, or a capture whose bay is not known yet. [log DEDUCED 90] -/
def State.bayWanted (s : State) (b : BayId) : Bool :=
  !(s.bay b).allPasses.isEmpty || s.cands.any (fun q => q.bayRaw == b.setWidth 16) ||
    s.readers.any (fun e => e.2.reading.isSome || !e.2.announced.isEmpty || !e.2.dropWait.isEmpty)

/-- DIM_WAKE: distribution restarts in every Dim folio of a bay at one edge; each counts (R75, Table 3.10).
[log DEDUCED 90] -/
def execDimWake (b : BayId) (s : State) : Out :=
  let fs := (s.bayFolios b).filter (fun f => (s.folio f).clock == .dim)
  if !s.fabricRuns || !s.bayWanted b then .next s
  else
    let t := fs.foldl (fun t f => t.modFolio f (fun x => { x with clock := .warm, idle := 0 })) s
    .next { t with clk := { t.clk with dimWakes := satAdd t.clk.dimWakes fs.length } }

end Sys2Proof.Machine
end

