-- ==== Sys2Proof/Machine/Codeword.lean ====
section
/-! DEFINITION. Machine/Codeword.lean: the data bits of a peer codeword, its CRC, and what a port sends (R364, R365,
R377, R383). -/

namespace Sys2Proof

/-- Values of given widths one after another, the first in the lowest bits. -/
def bitsOf : List (Nat × Nat) → Nat
  | [] => 0
  | (w, v) :: fs => v % 2 ^ w + 2 ^ w * bitsOf fs

/-- Steps of CRC-16, polynomial 0x1021, over the `n` low bits of a value, the highest of them first (R364).
[log DEDUCED 186] -/
def crc16Step : Nat → Nat → Half → Half
  | 0, _, c => c
  | n + 1, v, c => crc16Step n v (if c.getLsbD 15 != v.testBit n then (c <<< 1) ^^^ 0x1021 else c <<< 1)

/-- The two TAGS bits of a word (Table 16.1). -/
def LinkWord.tag : LinkWord → Nat
  | .idle => 0
  | .routed _ => 1
  | .scheduled _ => 2
/-- The 128 bits of a word (Table 16.1). -/
def LinkWord.bits : LinkWord → Nat
  | .idle => 0
  | .routed w => w.toNat
  | .scheduled f => f.toNat
/-- Word `k` of a codeword; one that is not given is idle. -/
def Codeword.word (cw : Codeword) (k : Nat) : LinkWord := cw.words.getD k .idle

/-- The data bits [5,123:0] of a codeword, which its CRC covers (Table 16.1). -/
def Codeword.covered (cw : Codeword) : Nat :=
  bitsOf ([(7, cw.seq.toNat), (7, cw.ack.toNat), (1, b2n cw.ackValid), (1, b2n cw.nack), (2, cw.kind.toNat),
      (32, cw.ctrl.toNat), (4, cw.ctype.toNat)] ++
    (List.range 39).map (fun k => (2, (cw.word k).tag)) ++ (List.range 39).map (fun k => (128, (cw.word k).bits)))
/-- The CRC-16 of those bits, from the initial value 0xFFFF (Table 16.1). -/
def Codeword.crcNow (cw : Codeword) : Half := crc16Step 5124 cw.covered 0xFFFF
/-- The 5,140 data bits of a codeword (R364). -/
def Codeword.dataBits (cw : Codeword) : BitVec 5140 := BitVec.ofNat 5140 (bitsOf [(5124, cw.covered), (16, cw.crc.toNat)])
/-- A codeword is good when the FEC decodes it and its CRC matches (R365). -/
def Codeword.good (cw : Codeword) : Bool := cw.fec && cw.crc == cw.crcNow
/-- A codeword whose CRC is that of its bits. -/
def Codeword.sealed (cw : Codeword) : Codeword := { cw with crc := cw.crcNow }
/-- The lane that a symbol of a codeword goes on (R364). -/
def symbolLane (sym : Nat) : Nat := sym % 8

namespace Machine

/-- KIND of the codewords that a port sends: frozen while the wafer freezes, train in training, data in service; none from
a link that is off, failed or miswired, and none without power or clock (R364, R377, R383). -/
def State.sendsKind (s : State) (l : LinkId) : Option Nat :=
  if !(s.pwr.powered && s.tickRuns) then none
  else
    let frozen := match s.act with
      | .none | .freqChange _ => false
      | _ => true
    match (s.link l).state with
    | .off | .failed | .miswired => none
    | .training => some (if frozen then 3 else 2)
    | .routed | .mesochronous => some (if frozen then 3 else 0)
/-- A codeword of a link in service, with its control slot and its words: ACK and NACK say what arrived (R377). -/
def State.codewordFor (s : State) (l : LinkId) (seq : BitVec 7) (ctype : BitVec 4) (ctrl : Word) (words : List LinkWord) :
    Codeword :=
  let k := s.link l
  Codeword.sealed
    { fec := true, corrected := false, crc := 0, seq := seq, ack := k.rxSeq.getD 0, ackValid := k.rxSeq.isSome,
      nack := k.nackSent, kind := BitVec.ofNat 2 ((s.sendsKind l).getD 1), ctrl := ctrl, ctype := ctype, serial := 0,
      freq := s.clk.freq, words := words }

end Machine

end Sys2Proof
end

