-- ==== Sys2Proof/Machine/Plane.lean ====
section
/-! DEFINITION. Machine/Plane.lean: the scheduled plane: the switch and its timetable, control words and what they do
at their effect boundary (chapter 8). -/

namespace Sys2Proof.Machine

/-! ### Flits (Table 8.2) -/

/-- The odd-parity bits of the bytes of DATA. -/
def parityOf (data : BitVec 112) : BitVec 14 :=
  (List.range 14).foldl (fun acc k =>
    let b := natBits data.toNat (8 * k) 8
    let ones := (List.range 8).countP (fun i => b / 2 ^ i % 2 = 1)
    setBit acc k (decide (ones % 2 = 0))) 0
/-- A valid flit that carries DATA. -/
def dataFlit (data : BitVec 112) : Flit := (0b01 : BitVec 2) ++ parityOf data ++ data
/-- A valid flit marked with bad parity (R138, R202). -/
def badFlit (data : BitVec 112) : Flit := (0b01 : BitVec 2) ++ (parityOf data ^^^ BitVec.allOnes 14) ++ data
/-- An idle flit: VALID 0, NVALID 1. -/
def idleFlit : Flit := (0b10 : BitVec 2) ++ (0 : BitVec 14) ++ (0 : BitVec 112)
/-- DATA of a flit. -/
def flitData (f : Flit) : BitVec 112 := f.setWidth 112
/-- VALID of a flit. -/
def flitValid (f : Flit) : Bool := f.getLsbD 126
/-- VALID equals NVALID. -/
def flitTorn (f : Flit) : Bool := f.getLsbD 126 == f.getLsbD 127
/-- A byte fails its parity. -/
def flitParityBad (f : Flit) : Bool := (f >>> 112).setWidth 14 != parityOf (flitData f)
/-- The 14 bytes of DATA. -/
def flitPayload (f : Flit) : List Byte := leBytes 14 (flitData f).toNat

/-! ### Timetable entries (Table 8.3) -/

/-- What the switch does in one working cycle: the source of each output and of RECV, and the entry's marks. -/
structure SwitchAct where
  out      : Nat → Nat
  recv     : Nat
  eg       : Bool
  crc      : Bool
  sendInc  : Bool
  recvInc  : Bool

/-- The entry at an index of the timetable in SRAM. -/
def Carrel.entryAt (k : Carrel) (base i : Nat) : Nat := leNat (k.sram.read Memory.blank (base + 8 * i) 8)
/-- KIND of an entry. -/
def entryKind (e : Nat) : Nat := natBits e 0 3

/-- Go to an entry: LOOP and END take no cycle; ROUTE, IDLE and CRC set the cycles they cover. The Bool says that an
entry of an undefined kind, or a LOOP in a body, was read (R200, R202); what the switch does after such an entry the spec
leaves open: the timetable ends there. [log DESIGN CHOICE 168] -/
def Carrel.enter (k : Carrel) (p : SwitchPos) (i : Nat) : Nat → SwitchPos × Bool
  | 0 => ({ p with ended := true }, true)
  | n + 1 =>
    if p.inLoop && i == p.bodyEnd then
      if 1 < p.times then k.enter { p with times := p.times - 1 } p.bodyAt n
      else k.enter { p with inLoop := false, times := 0 } i n
    else
      let e := k.entryAt p.base i
      match entryKind e with
      | 0 => ({ p with entry := i, left := natBits e 46 8 + 1, send := natBits e 18 12, recv := natBits e 30 12 }, false)
      | 1 => ({ p with entry := i, left := natBits e 3 32 }, false)
      | 2 =>
        if p.inLoop then ({ p with ended := true }, true)
        else k.enter { p with inLoop := true, bodyAt := i + 1, bodyEnd := i + 1 + natBits e 3 10, times := natBits e 13 32 }
          (i + 1) n
      | 3 => ({ p with ended := true }, false)
      | 4 => ({ p with entry := i, left := 1 }, false)
      | _ => ({ p with ended := true }, true)

/-- The timetable begins at its base (R200, R206). [log DESIGN CHOICE 42] -/
def Carrel.begin_ (k : Carrel) (base : Nat) : SwitchPos × Bool := k.enter { base := base, ended := false } 0 4

/-- What the entry in force asks of this cycle. -/
def Carrel.act (k : Carrel) : SwitchAct :=
  let p := k.regs.switch.pos
  let e := k.entryAt p.base p.entry
  let idle : SwitchAct := { out := fun _ => 0, recv := 0, eg := false, crc := false, sendInc := false, recvInc := false }
  if p.ended then idle
  else match entryKind e with
    | 0 => { out := fun o => natBits e (3 + 3 * o) 3, recv := natBits e 15 3, eg := natBits e 44 1 == 1, crc := false,
             sendInc := natBits e 42 1 == 1, recvInc := natBits e 43 1 == 1 }
    | 4 => { idle with out := fun o => natBits e (3 + 3 * o) 3, crc := true }
    | _ => idle

/-- An input is selected by an output or by RECV. [log DEDUCED 41] -/
def SwitchAct.selects (a : SwitchAct) (code : Nat) : Bool :=
  a.recv == code || (List.range 4).any (fun o => a.out o == code)

/-- A plane error at an input (Table 8.4). -/
def inputError (f : Flit) (selected : Bool) : Bool :=
  flitTorn f || (flitValid f && flitParityBad f) || flitValid f != selected

/-- What the switch of a carrel makes of one working cycle. -/
structure SwitchStep where
  carrel : CarrelId
  after  : Carrel
  /-- The flits on the outputs N, E, S, W. -/
  outs   : List Flit
  /-- Inputs that show a plane error (Table 8.4). -/
  errs   : Nat
  /-- The payload CRC did not match (R209). -/
  crcBad : Bool
  /-- Flits that a crossing FIFO marked (R71). -/
  fifo   : Nat

/-- The flits at the head of the links toward a carrel. -/
def SwitchRegs.heads (sw : SwitchRegs) : List Flit :=
  [sw.linkN.headD idleFlit, sw.linkE.headD idleFlit, sw.linkS.headD idleFlit, sw.linkW.headD idleFlit]
/-- Those flits have arrived. -/
def SwitchRegs.popLinks (sw : SwitchRegs) : SwitchRegs :=
  { sw with linkN := sw.linkN.drop 1, linkE := sw.linkE.drop 1, linkS := sw.linkS.drop 1, linkW := sw.linkW.drop 1 }

/-- One working cycle of a switch: whether it is the payload or the egress carrel's, the four flits that arrive, and
whether its SRAM read was uncorrectable. The answer holds the carrel, the outputs N, E, S, W, the number of input errors,
and whether the payload CRC failed. [log DEDUCED 22, 41] -/
def Carrel.switchCycle (k : Carrel) (pay egr : Bool) (ins : List Flit) (ue : Bool) :
    Carrel × List Flit × Nat × Bool :=
  let sw := k.regs.switch
  let a := k.act
  let inAt (code : Nat) : Flit := (ins[code - 1]?).getD idleFlit
  let sendData : BitVec 112 := BitVec.ofNat 112 (leNat (k.sram.read Memory.blank (16 * sw.pos.send) 14))
  let crcData : BitVec 112 := (sw.txCrc ^^^ 0xFFFFFFFF).setWidth 112
  let local_ : Flit := if a.crc then dataFlit crcData else if ue then badFlit sendData else dataFlit sendData
  let src (code : Nat) : Flit :=
    if code = 0 then idleFlit else if code = 5 then local_ else inAt code
  let outs := (List.range 4).map (fun o => src (a.out o))
  let errs := ((List.range 4).filter (fun i => inputError (inAt (i + 1)) (a.selects (i + 1)))).length
  let sends := (List.range 4).any (fun o => a.out o == 5)
  -- RECV
  let got := src a.recv
  let sram := if a.recv = 0 then k.sram
    else k.sram.write Memory.blank (16 * sw.pos.recv) (flitPayload got ++ [0, 0])
  let takesEg := egr && a.recv != 0 && a.eg
  let takesCrc := egr && a.recv != 0 && !a.eg && !sw.rxBytes.isEmpty && sw.rxDone.isNone
  let ok := flitData got == (sw.rxCrc ^^^ 0xFFFFFFFF).setWidth 112
  -- position
  let pos := { sw.pos with
    send := if sends && a.sendInc then sw.pos.send + 1 else sw.pos.send,
    recv := if a.recv != 0 && a.recvInc then sw.pos.recv + 1 else sw.pos.recv }
  let k1 := { k with sram := sram }
  let (pos, bad) :=
    if pos.ended then (pos, false)
    else if pos.left ≤ 1 then k1.enter pos (pos.entry + 1) 4
    else ({ pos with left := pos.left - 1 }, false)
  let sw := { sw.popLinks with
    w := sw.w + 1, pos := pos,
    txCrc := if a.crc then crc32Init
             else if pay && sends && a.eg then crc32Feed sw.txCrc (leBytes 14 sendData.toNat) else sw.txCrc,
    rxCrc := if takesEg then crc32Feed sw.rxCrc (flitPayload got) else sw.rxCrc,
    rxBytes := if takesEg then sw.rxBytes ++ flitPayload got else sw.rxBytes,
    rxDone := if takesCrc then some ok else sw.rxDone,
    rxAt := if takesCrc then sw.w else sw.rxAt }
  let crcBad := takesCrc && !ok
  let k2 := { k1 with
    regs := { k1.regs with switch := sw }, beatReplays := if sw.w % 16 = 0 then 0 else k1.beatReplays,
    repPlane := k1.repPlane || decide (0 < errs) || bad || crcBad }
  (k2, outs, errs, crcBad)

/-- The carrel beyond output port 0 N, 1 E, 2 S, 3 W, inside a rectangle. -/
def BayEntry.neighbour (e : BayEntry) (c : CarrelId) (o : Nat) : Option CarrelId :=
  let x := c.x.val
  let y := c.y.val
  match o with
  | 0 => if e.y0 < y then some (carrelAt x (y - 1)) else none
  | 1 => if x + 1 < e.x0 + e.w then some (carrelAt (x + 1) y) else none
  | 2 => if y + 1 < e.y0 + e.h then some (carrelAt x (y + 1)) else none
  | _ => if e.x0 < x then some (carrelAt (x - 1) y) else none

/-- A flit leaves on an output toward a neighbour in the bay: it is on its way until its hop is over (R194, R48). -/
def State.sendFlit (s : State) (e : BayEntry) (c : CarrelId) (o : Nat) (f : Flit) : State :=
  match e.neighbour c o with
  | none => s
  | some d =>
    s.modCarrel d (fun k =>
      let sw := k.regs.switch
      let sw := match o with
        | 0 => { sw with linkS := sw.linkS ++ [f] }
        | 1 => { sw with linkW := sw.linkW ++ [f] }
        | 2 => { sw with linkN := sw.linkN ++ [f] }
        | _ => { sw with linkE := sw.linkE ++ [f] }
      { k with regs := { k.regs with switch := sw } })

/-! ### Crossing FIFOs (R71) -/

/-- The write pointer of the crossing FIFOs on one side of a folio gains an entry on the read pointer, or loses one. -/
def Folio.drift (x : Folio) (f : FolioId) (side : Fin 4) (gain : Bool) : Folio :=
  let lead := x.fifoLead[side.val]
  { x with
    fifoLead := x.fifoLead.set side.val (if gain then min (fifoDepth f side.val + 1) (lead + 1) else lead - 1) }
/-- The FIFOs on one side of a folio underrun or overrun: the pointers have met, or are more than its depth apart. -/
def Folio.fifoBad (x : Folio) (f : FolioId) (side : Fin 4) : Bool :=
  x.fifoLead[side.val] == 0 || decide (fifoDepth f side.val < x.fifoLead[side.val])
/-- The input of a carrel from a neighbour of another folio. -/
def inputCrosses (e : BayEntry) (c : CarrelId) (i : Nat) : Bool :=
  match e.neighbour c i with
  | none => false
  | some d => d.folio != c.folio
/-- A flit marked with bad parity (R71): its DATA and VALID stand. -/
def markBad (f : Flit) : Flit := (f >>> 126).setWidth 2 ++ (parityOf (flitData f) ^^^ BitVec.allOnes 14) ++ flitData f

/-! ### Peer-link crossings (R370, R371, R376) -/

/-- The scheduled words that the ports of a bay's crossings deliver in pass cycle `w`: those sent 16 K cycles before, one
for each active channel, as the carrel, the input and the flit (R371). [log DEDUCED 44] -/
def State.crossingIn (s : State) (b : BayId) (w : Nat) : List (CarrelId × Nat × Flit) :=
  match s.cdx.codex with
  | none => []
  | some x => (s.crossingsOf b).flatMap (fun e =>
      let l := linkOf e.dir e.link
      if w < 16 * e.k then []
      else ((maskList (x.activeMask b e.set l)).zip (s.link l).words).map (fun q =>
        ((channelCarrel l q.1).1, (channelCarrel l q.1).2, q.2)))
/-- Those words leave the elastic buffers of their ports (R371). [log DEDUCED 44] -/
def State.takeWords (s : State) (b : BayId) (w : Nat) : State :=
  match s.cdx.codex with
  | none => s
  | some x => (s.crossingsOf b).foldl (fun t e =>
      let l := linkOf e.dir e.link
      if w < 16 * e.k then t
      else t.modLink l (fun k => { k with words := k.words.drop (maskList (x.activeMask b e.set l)).length })) s
/-- One word for each active channel, in channel order, leaves toward the partner: what the carrel's outward port sent
(R371). -/
def State.sendWords (s : State) (b : BayId) (rs : List SwitchStep) : State :=
  match s.cdx.codex with
  | none => s
  | some x => (s.crossingsOf b).foldl (fun t e =>
      let l := linkOf e.dir e.link
      let out (ch : Nat) : Flit :=
        match rs.find? (fun r => r.carrel == (channelCarrel l ch).1) with
        | none => idleFlit
        | some r => r.outs.getD (channelCarrel l ch).2 idleFlit
      t.modLink l (fun k => { k with sent := k.sent ++ (maskList (x.activeMask b e.set l)).map out })) s
/-- The elastic buffers of a bay's crossings are emptied: at START, and at a recall other than PREEMPT (R206, R376). -/
def State.clearWords (s : State) (b : BayId) : State :=
  (s.crossingsOf b).foldl (fun t e => t.modLink (linkOf e.dir e.link) (fun k => { k with words := [] })) s
/-- A recall other than PREEMPT has the ports of a bay's crossings discard the words they hold (R376). -/
def State.dropWords (s : State) (b : BayId) (cause : BitVec 4) : State :=
  if cause = recallPreempt then s else s.clearWords b

/-! ### A working cycle of a bay -/

/-- The flit that arrives at an input of a carrel, with what its lanes and its crossing FIFO did to it, and whether a FIFO
marked it (R71, R194, R196). -/
def State.arriving (s : State) (e : BayEntry) (words : List (CarrelId × Nat × Flit)) (ev : PlaneEvents) (c : CarrelId)
    (i : Fin 4) : Flit × Bool :=
  let f := match words.find? (fun q => q.1 == c && q.2.1 == i.val) with
    | some q => q.2.2
    | none => (s.carrel c).regs.switch.heads.getD i.val idleFlit
  let f := (ev.lanes.filter (fun q => q.1 == c && q.2.1 == i)).foldl (fun g q => g ^^^ q.2.2) f
  if inputCrosses e c i.val && (s.folio c.folio).fifoBad c.folio i then (markBad f, true) else (f, false)

/-- What one switch of a bay makes of the cycle. -/
def State.switchStep (s : State) (e : BayEntry) (words : List (CarrelId × Nat × Flit)) (ev : PlaneEvents) (c : CarrelId) :
    SwitchStep :=
  let ins := (List.finRange 4).map (s.arriving e words ev c)
  let ue := ev.ecc.any (fun q => q.1 == c && q.2.bad)
  let (k, outs, errs, crcBad) := (s.carrel c).switchCycle (c == e.payload) (c == e.egress) (ins.map (fun q => q.1)) ue
  { carrel := c, after := k, outs := outs, errs := errs, crcBad := crcBad, fifo := (ins.filter (fun q => q.2)).length }

/-- The cycle's outcome stands at one carrel, and its errors are counted where they were seen (R416, Table 18.3). -/
def State.putSwitch (s : State) (ev : PlaneEvents) (r : SwitchStep) : State :=
  let t := (ev.ecc.filter (fun q => q.1 == r.carrel)).foldl (fun t q => t.countSram q.1.folio q.2) (s.setCarrel r.carrel r.after)
  let t := t.modFolio r.carrel.folio (fun f =>
    { f with planeFlit := satAdd f.planeFlit r.errs, planeFifo := satAdd f.planeFifo r.fifo,
             payCrc := if r.crcBad then satInc f.payCrc else f.payCrc })
  if r.after.repPlane then { t with int := { t.int with evPlane := true } } else t

/-- A carrel of a bay has made a FAULT, OVERRUN or PLANE report in this pass. -/
def State.errorMade (s : State) (b : BayId) : Bool :=
  (s.bayCarrels b).any (fun c =>
    let k := s.carrel c
    k.regs.st.faulted || k.regs.st.overrun || k.repFault || k.repOverrun || k.repPlane)

/-- The payload whose CRC flit has just matched at egress becomes the pass's (R209); what had been reported by then
withholds it (R94), and a fault before it leaves its hash unrecorded (Table 1.1). EG flits that hold fewer than L bytes make
a shorter payload where their CRC matches, and its verdict hash is over the bytes that came. [log DESIGN CHOICE 183] -/
def State.takePayload (s : State) (b : BayId) (e : BayEntry) (was : Option Bool) : State :=
  let sw := (s.carrel e.egress).regs.switch
  if was.isSome || sw.rxDone.isNone then s
  else
    let late := s.errorMade b
    let fault := (s.pair b).any (fun c => (s.bayCarrels c).any (fun d => (s.carrel d).run == .faulted))
    match (s.bay b).running with
    | none => s
    | some v => s.modPass b (fun p =>
        { p with late := p.late || p.report || late, faultFirst := fault,
                 payload := if sw.rxDone = some true then some (sw.rxBytes.take v.len) else p.payload })

/-- A bay whose switches run: every carrel holds the same pass cycle count (R192). -/
def State.planeRuns (s : State) (b : BayId) : Bool :=
  s.fabricRuns && (s.bay b).phase == .running && (s.bay b).pass.isSome

/-- A beat boundary of a bay: its carrels adopt the allowance they were given, and a trim change that waited for them goes
on (R101). -/
def State.beatBoundary (s : State) (b : BayId) : State :=
  (s.mapBay b (fun _ k => k.adoptAllow)).trimGo

/-- One working cycle of a bay: every carrel's switch takes the flits that arrive and sends as its timetable names. -/
def State.planeCycle (s : State) (b : BayId) (e : BayEntry) (ev : PlaneEvents) : State :=
  let was := (s.carrel e.egress).regs.switch.rxDone
  let s := ev.drift.foldl (fun t d => t.modFolio d.1 (fun x => x.drift d.1 d.2.1 d.2.2)) s
  let w := s.passCycle e
  let words := s.crossingIn b w
  let rs := e.carrels.map (s.switchStep e words ev)
  let t := rs.foldl (fun t r => t.putSwitch ev r) (s.takeWords b w)
  let t := rs.foldl (fun t r => ((List.range 4).zip r.outs).foldl (fun u of => u.sendFlit e r.carrel of.1 of.2) t) t
  let t := (t.sendWords b rs).takePayload b e was
  if (w + 1) % 16 = 0 then t.beatBoundary b else t

/-- FLIT: flits arrive at the switch inputs of a bay in one working cycle, and are checked, forwarded and received as the
timetables name (R192 to R202, R208, R209). [log DEDUCED 41] -/
def execFlit (b : BayId) (ev : PlaneEvents) (s : State) : Out :=
  match s.bayEntry b with
  | none => .next s
  | some e => if s.planeRuns b then .next (s.planeCycle b e ev) else .next s

/-! ### Control words (R203 to R206) -/

/-- The word of Table 8.5 carries a good CRC. -/
def controlOk (w : Word) : Bool := crc8 (leBytes 3 w.toNat) == (w >>> 24).setWidth 8

/-- Bad control words are counted in their folio (Table 18.3). -/
def State.countControl (s : State) (f : FolioId) (n : Nat) : State :=
  s.modFolio f (fun x => { x with ctrlCrc := satAdd x.ctrlCrc n })
/-- A control word that no copy brought good is counted in its folio and reported as PLANE. -/
def State.badControl (s : State) (f : FolioId) (n : Nat) : State :=
  let t := s.countControl f n
  { t with int := { t.int with evPlane := true } }

/-- CONTROL_WORD: the CRC is checked. A good word, the first good copy at a librarian, is taken: its fields act at their
effect boundary, by START, RESUME, RECALL and FRACTION. A carrel with a bad word reports PLANE, a bad copy at a librarian
is counted, and with two the librarian issues ABORT for the bay (R202, R203). [log DEDUCED 45, 184] -/
def execControlWord (dst : ControlDst) (s : State) : Out :=
  match dst with
  | .carrel c word =>
    if controlOk word then
      match (s.carrel c).bay with
      | none => .next s
      | some b => .next (s.takeWord b word)
    else .next ((s.badControl c.folio 1).modCarrel c (fun k => if k.bay.isSome then { k with repPlane := true } else k))
  | .librarian b f c0 c1 =>
    match controlOk c0, controlOk c1 with
    | true, ok1 => .next ((s.countControl f (b2n (!ok1))).takeWord b c0)
    | false, true => .next ((s.countControl f 1).takeWord b c1)
    | false, false =>
      let t := s.badControl f 2
      .next ((t.modPass b (fun p => { p with report := true })).stopPass b (t.aborted 2))

/-- The PROGRAM run that covers a carrel, for a VSLOT and set of a bay (R260). [log DEDUCED 43] -/
def State.programOf (s : State) (b : BayId) (e : BayEntry) (vslot : Byte) (set : Nat) (c : CarrelId) :
    Option ProgramEntry :=
  match s.cdx.codex with
  | none => none
  | some x => x.programs.find? (fun p =>
      p.bay == b && p.vslot == vslot && p.set == set && inRect c.x.val c.y.val (e.x0 + p.dx) (e.y0 + p.dy) p.w p.h)

/-- A carrel's program: of the set in force, else of the primary set. [log DEDUCED 43] -/
def State.timetable (s : State) (b : BayId) (e : BayEntry) (vslot : Byte) (c : CarrelId) : Option ProgramEntry :=
  match s.programOf b e vslot (s.bay b).altSet c with
  | some p => some p
  | none => s.programOf b e vslot 0 c

/-- The timetables of the codex are placed in the SRAM of the bay's carrels at their bases (R198).
[log DEDUCED 43, 63] -/
def State.placeTables (s : State) (b : BayId) (vslot : Byte) : State :=
  match s.bayEntry b with
  | none => s
  | some e =>
    e.carrels.foldl (fun t c =>
      match s.timetable b e vslot c with
      | none => t
      | some p => t.modCarrel c (fun k =>
          { k with sram := k.sram.write Memory.blank p.base (p.table.flatMap (fun d => leBytes 8 d.toNat)) })) s

/-- The st register at the start of a pass (Table 6.8). -/
def startStatus (e : BayEntry) (v : Volume) (f : Folio) : StReg :=
  { fcode := 0, faulted := false, piecewise := e.piecewise, pure_ := v.pure_, allow := f.allow, reserve := e.reserve,
    overrun := false, replays := 0 }

/-- Idle flits on the link toward input 0 N, 1 E, 2 S, 3 W of a carrel as START clears it: one for each cycle of its hop
(R48, R206). -/
def BayEntry.clearLink (e : BayEntry) (c : CarrelId) (i : Nat) : List Flit :=
  match e.neighbour c i with
  | none => []
  | some d => List.replicate (hopCost d c) idleFlit

/-- A carrel begins its pass at the START boundary: pc 0, g1 the region offset, everything else zero, the tile of the MX
among it (R19, R206, R280). [log DESIGN CHOICE 42] -/
def Carrel.start (k : Carrel) (c : CarrelId) (b : BayId) (ticket : BitVec 16) (e : BayEntry) (v : Volume) (f : Folio)
    (base : Nat) : Carrel :=
  let (pos, bad) := k.begin_ base
  { k with
    run := .running, long := none, ir := none, loads := [], stores := [], reserved := none, beatReplays := 0,
    exitDone := false, cellWait := false, ticket := ticket, bay := some b, repQuiesced := false, repExited := false, repFault := false,
    repOverrun := false, repPlane := bad,
    regs := { k.regs with
      g := (Vector.replicate 32 0).set 1 (BitVec.ofNat 32 v.region), a := .replicate 16 0, p := .replicate 8 false,
      pc := 0, pg := {}, st := startStatus e v f, rc := { k.regs.rc with recalls := 0, pending := false, pendingCause := 0 },
      tile := [],
      switch := { running := true, pos := pos, linkN := e.clearLink c 0, linkE := e.clearLink c 1,
                  linkS := e.clearLink c 2, linkW := e.clearLink c 3 } } }

/-- The START word takes effect on every carrel of a bay. -/
def State.startBay (s : State) (b : BayId) : State :=
  match s.bayEntry b, (s.bay b).pass, (s.bay b).running with
  | some e, some p, some v =>
    let t := e.carrels.foldl (fun t c =>
      let base := match s.timetable b e p.req.vslot c with
        | none => 0
        | some r => r.base
      t.modCarrel c (fun k => k.start c b (p.epoch ++ p.req.reader) e v (s.folio c.folio) base)) (s.clearWords b)
    t.modBay b (fun x =>
      { (x.usedWord (fun w => { w with op := 0 })) with
        phase := .running,
        pass := some { p with started := true, exited := [], quiesced := [], recallIn := 0 } })
  | _, _, _ => s

/-- Every folio of a bay is Warm: its clocks run for a pass (R74, R75). -/
def State.bayWarm (s : State) (b : BayId) : Bool := (s.bayFolios b).all (fun f => (s.folio f).clock == .warm)

/-- START takes effect: every carrel begins at w = 0 (R206, R280). [log DESIGN CHOICE 12] -/
def execStart (b : BayId) (s : State) : Out :=
  let x := s.bay b
  if s.fabricRuns && x.phase == .setup && x.word.op == 1 && s.bayWarm b then .next (s.startBay b).settle
  else .next s

/-- A restored carrel goes on where it stopped: a core that had exited stays so. -/
def Carrel.resume (k : Carrel) : Carrel :=
  if k.run = .quiesced then
    { k with run := if k.exitDone then .exited else .running,
             regs := { k.regs with switch := { k.regs.switch with running := true } } }
  else k

/-- The RESUME word takes effect on every carrel of a bay. -/
def State.resumeBay (s : State) (b : BayId) : State :=
  (s.mapBay b (fun _ k => k.resume)).modBay b (fun x =>
    { (x.usedWord (fun w => { w with op := 0 })) with phase := .running })

/-- RESUME takes effect: switch and core restart with w continuing (R206, R289). -/
def execResume (b : BayId) (s : State) : Out :=
  let x := s.bay b
  if s.fabricRuns && x.phase == .resumeIssued && x.word.op == 2 && s.bayWarm b then .next ((s.resumeBay b).checkComplete b).settle
  else .next s

/-- The recall's effect on a carrel: the switch stops at the first cycle of the beat; the core takes the recall at
its next boundary. A cause other than PREEMPT discards what the links hold (R206). [log DEDUCED 21, 26] -/
def Carrel.recallNow (k : Carrel) (cause : BitVec 4) : Carrel :=
  let sw := { k.regs.switch with running := false }
  let sw := if cause = recallPreempt then sw else { sw with linkN := [], linkE := [], linkS := [], linkW := [] }
  { k with run := (match k.run with
                   | .running | .exited => .recalling
                   | r => r),
           regs := { k.regs with switch := sw } }

/-- A recall that meets a carrel which is quiescing or shelving becomes pending, by rank (R150). [log DEDUCED 21] -/
def Carrel.recallPend (k : Carrel) (cause : BitVec 4) : Carrel :=
  let rc := k.regs.rc
  let c := if rc.pending then recallMax rc.pendingCause cause else cause
  { k with regs := { k.regs with rc := { rc with pending := true, pendingCause := c } } }

/-- The recall reaches a running pass. -/
def State.recallBay (s : State) (b : BayId) (cause : BitVec 4) : State :=
  (((s.beatBoundary b).mapBay b (fun _ k => k.recallNow cause)).dropWords b cause).modBay b (fun x =>
    { x with phase := .recalled,
             pass := x.pass.map (fun p =>
               { p with recallIn := cause, quiesced := [],
                        recalls := if cause = recallPreempt then p.recalls + 1 else p.recalls }) })

/-- A carrel of a bay has faulted (R151). -/
def State.bayFaulted (s : State) (b : BayId) : Bool := (s.bayCarrels b).any (fun c => (s.carrel c).run == .faulted)

/-- A terminating recall is pending on a bay's carrels (R150). -/
def State.recallPends (s : State) (b : BayId) : Bool :=
  (s.bayCarrels b).any (fun c =>
    let rc := (s.carrel c).regs.rc
    rc.pending && rc.pendingCause != recallPreempt)
/-- A pending recall is taken: its cause stands in rc (R150). -/
def Carrel.takePending (k : Carrel) : Carrel :=
  let rc := k.regs.rc
  if rc.pending then
    { k with regs := { k.regs with rc := { rc with cause := rc.pendingCause, pending := false, pendingCause := 0 } } }
  else k
/-- The pass of a bay ends by the terminating recall that was pending on its carrels, or was issued for it (R150). -/
def State.endPending (s : State) (b : BayId) (cause : BitVec 4) : State :=
  (s.mapBay b (fun _ k => k.takePending)).endPassBy b cause

/-- The bay is quiescent: a terminating recall ends the pass; a PREEMPT starts shelving out, but never of a pass with a
faulted carrel, which ends when the FAULT recall takes effect (R143, R147, R149, R151, Case 6.3). -/
def State.quiescentBay (s : State) (b : BayId) : State :=
  let x := s.bay b
  match x.pass with
  | none => s
  | some p =>
    if x.phase ≠ .recalled ∨ p.quiesced.length < (s.bayCarrels b).length then s
    else if p.recallIn ≠ recallPreempt then s.endPassBy b p.recallIn
    else if s.bayFaulted b then (if s.recallPends b then s.endPending b p.stopped else s)
    else s.modBay b (fun y => { y with phase := .shelvingOut })

/-- RECALL takes effect on a bay (R206, R150): a pass whose START or RESUME takes effect with it is recalled as it
stands, by a terminating cause discarded; a bay already quiescing or shelving holds it as pending. -/
def execBayRecall (b : BayId) (s : State) : Out :=
  let x := s.bay b
  let cause := x.word.recallIn
  if !s.fabricRuns || cause == 0 then .next s
  else
    let s := s.modBay b (fun y => y.usedWord (fun w => { w with recallIn := 0 }))
    match x.phase with
    | .setup =>
      if cause ≠ recallPreempt then .next (s.endPassBy b cause).settle
      else .next ((s.startBay b).recallBay b cause).settle
    | .resumeIssued =>
      if cause ≠ recallPreempt then .next (s.endPassBy b cause).settle
      else .next ((s.resumeBay b).recallBay b cause).settle
    | .running => .next (s.recallBay b cause).settle
    | .recalled => .next ((s.mapBay b (fun _ k => k.recallPend cause)).quiescentBay b).settle
    | .shelvingOut | .shelvingIn => .next (s.mapBay b (fun _ k => k.recallPend cause))
    | _ => .next s

/-- FRACTION takes effect: the dilated beat length of the bay (R89, R206). -/
def execFraction (b : BayId) (s : State) : Out :=
  let x := s.bay b
  if s.fabricRuns && x.word.fraction != 0 then
    .next (s.modBay b (fun y =>
      { (y.usedWord (fun w => { w with fraction := 0 })) with frac := y.word.fraction.toNat }))
  else .next s

end Sys2Proof.Machine
end

