-- ==== Sys2Proof/Machine/Power.lean ====
section
/-! DEFINITION. Machine/Power.lean: AVSBus frames, rails and margin trim, meters and limits, regulator alerts, the
coolant monitor (chapter 4, R310, R311, R442, R445, R449). -/

namespace Sys2Proof.Machine

/-! ### Rails and trim (R82, R101, R310, R311) -/

/-- AVS_FRAME_EFFECT: the frame on its way takes effect at the regulator, or was cut short and is discarded; the next
step follows unless a freeze stands (R82, R98, R103). [log DESIGN CHOICE 94] -/
def execAvsFrameEffect (f : FolioId) (cut : Bool) (s : State) : Out :=
  match (s.folio f).frame with
  | none => .next s
  | some v =>
    let t := s.modFolio f (fun x => { x with frame := none, setpoint := if cut then x.setpoint else v })
    .next t.pumpBuses

/-- RAIL_SETTLED: the regulator reports the rail settled; the transition continues or ends (R72, R101). -/
def execRailSettled (f : FolioId) (s : State) : Out :=
  let x := s.folio f
  if x.frame.isSome || x.setpoint != x.railGoal || x.settled then .next s
  else
    let t := s.modFolio f (fun y => { y with settled := true })
    .next (if t.stepsRun then (t.trimSettled f).advance else t)

/-- TRIM_REQ_WRITE: a trim setting is requested; above 4 the write is dropped (R310, R312). -/
def execTrimReqWrite (f : FolioId) (req : BitVec 3) (s : State) : Out :=
  if s.writesDropped then .next s
  else if 4 < req.toNat then .next { s with portRegs := { s.portRegs with evTrimBad := true } }
  else .next ((s.modFolio f (fun x => { x with req := req })).trimEval f)

/-- TRIM_CLEAR: the backoff ceiling rises to M4 (R311). -/
def execTrimClear (f : FolioId) (s : State) : Out :=
  if s.writesDropped then .next s else .next ((s.modFolio f (fun x => { x with ceiling := 4 })).trimEval f)

/-! ### Meters (R83, R84) -/

/-- A meter before its calibration, in mA: the counts of a microsecond weighted with the imprint's coefficients, and the
leakage term (R83). -/
def Imprint.meter (m : Imprint) (counts : MeterCounts) : Nat :=
  m.leakage + ((List.finRange 6).map (fun (i : Fin 6) => m.coeffs[i] * counts[i])).sum
/-- The reading of a calibrated meter, in whole mA: gain and offset are those of the line through its two points (R83).
[log DESIGN CHOICE 91] -/
def Folio.reading (x : Folio) (raw : Nat) : Nat :=
  let gain : Int := (x.calHigh.tel : Int) - x.calLow.tel
  let span_ : Int := (x.calHigh.raw : Int) - x.calLow.raw
  ((x.calLow.tel : Int) + ((raw : Int) - x.calLow.raw) * gain / span_).toNat
/-- The sum and the number of the last `n` of a list of samples; one zero sample where there is none.
[log DESIGN CHOICE 91] -/
def windowOf (xs : List Nat) (n : Nat) : Nat × Nat := ((xs.take n).sum, max 1 (xs.take n).length)

/-! ### Limits (R85 to R88) -/

/-- The lowering rule of R85: from f by limit and average, and by one at least; never below 1. The average is sum / n, in
the limit's unit. -/
def lowerFraction (f limit sum n : Nat) : Nat :=
  let v := max 1 (f * limit * n / sum)
  if v = f then max 1 (f - 1) else v

/-- The stacks rail that serves a folio (Table 4.5). -/
def stacksRail (f : FolioId) : Fin 4 := Fin.ofNat 4 (folioX f / 4 * 2 + folioY f / 4)

/-- The rail fraction and its run after an update, from the window's sums and numbers of samples and the limits, all in mA
(R85, R86). -/
def railUpdate (frac run window : Nat) (limit stacksLimit : Nat) (core mem : Nat × Nat) : Nat × Nat :=
  let reached (l : Nat) (q : Nat × Nat) : Bool := decide (l * q.2 ≤ q.1)
  let a := if reached limit core then lowerFraction frac limit core.1 core.2 else frac
  let b := if reached stacksLimit mem then lowerFraction frac stacksLimit mem.1 mem.2 else frac
  let low := min a b
  if low < frac then (low, 0)
  else if 16 * core.1 < 15 * limit * core.2 ∧ 16 * mem.1 < 15 * stacksLimit * mem.2 ∧ frac < 16 then
    if window ≤ run + 1 then (frac + 1, 0) else (frac, run + 1)
  else (frac, 0)

/-- The window of a stacks rail: its sum and number of samples (R86). -/
def Pwr.stacksWindow (p : Pwr) (r : Fin 4) : Nat × Nat := windowOf p.stacksRuns[r] p.railWindow.toNat
/-- A folio after its meter has read `ma`: the average over the window is compared with the limits (R85, R86). -/
def Folio.metered (x : Folio) (p : Pwr) (f : FolioId) (ma : Nat) : Folio :=
  let runs := (ma :: x.runs).take 64
  let core := windowOf runs p.railWindow.toNat
  let next := railUpdate x.railFrac x.railRun p.railWindow.toNat (1000 * p.folioA.toNat) (1000 * p.stacksA.toNat) core
    (p.stacksWindow (stacksRail f))
  { x with runs := runs, iAvg := satNat 10 (core.1 / (1000 * core.2)), railFrac := next.1, railRun := next.2 }

/-- RAIL_METER_UPDATE: a librarian's microsecond: its meter reads, and the rail averages are compared with the limits
(R83, R85, R86, R88). A folio whose librarian is stopped has none. [log DESIGN CHOICE 91] -/
def execRailMeterUpdate (f : FolioId) (counts : MeterCounts) (s : State) : Out :=
  let x := s.folio f
  if !s.fabricRuns || x.clock == .dark || x.clock == .off then .next s
  else
    let y := x.metered s.pwr f (x.reading (s.imprint.meter counts))
    let lowered := decide (y.railFrac < x.railFrac)
    let p := { s.pwr with
      evRail := s.pwr.evRail || lowered, throttles := if lowered then satInc s.pwr.throttles else s.pwr.throttles }
    .next (({ s with pwr := p } : State).modFolio f (fun _ => y)).updateFractions

/-- The ceiling and its run after an update, from the window's sum and number of samples, in the cap's unit (R87). -/
def capStep (c run window cap : Nat) (power : Nat × Nat) : Nat × Nat :=
  if cap * power.2 ≤ power.1 then (lowerFraction c cap power.1 power.2, 0)
  else if 16 * power.1 < 15 * cap * power.2 ∧ c < 16 then
    if window * 1000 ≤ run + 1 then (c + 1, 0) else (c, run + 1)
  else (c, 0)

/-- A regulator's telemetry as the buses have read it (R80). -/
def State.takeTelemetry (s : State) (r : Rail) (t : Telemetry) : State :=
  match r with
  | .core f => s.modFolio f (fun x => { x with tel := t })
  | .stackMem n => { s with pwr := { s.pwr with stacksTel := s.pwr.stacksTel.set n.val t } }
  | .io q => { s with pwr := { s.pwr with ioTel := (s.pwr.ioTel.filter (fun e => e.1 != q)) ++ [(q, t)] } }

/-- What a folio's meter last read, in mA; a folio whose librarian is stopped counts for nothing.
[log DESIGN CHOICE 91] -/
def Folio.lastReading (x : Folio) : Nat := if x.clock = .dark ∨ x.clock = .off then 0 else x.runs.headD 0
/-- The wafer power, in µW: each core reading times its setpoint, and the telemetry power of the stacks and input/output
rails (R84). -/
def State.waferPower (s : State) : Nat :=
  (allFolios.map (fun f => (s.folio f).lastReading * (s.folio f).setpoint)).sum +
    (s.pwr.stacksTel.toList.map (fun t => t.ma * t.mv)).sum + (s.pwr.ioTel.map (fun e => e.2.ma * e.2.mv)).sum

/-- A microsecond of the rails that telemetry meters: each stacks rail and the wafer power have one more sample, and the
averages are those of the windows (R84, R86, R87). -/
def Pwr.sampled (p : Pwr) (power : Nat) : Pwr :=
  let runs := Vector.ofFn (fun (r : Fin 4) => ((p.stacksTel[r].ma :: p.stacksRuns[r]).take 64))
  let all := (power :: p.waferRuns).take 100000
  let q := { p with stacksRuns := runs, waferRuns := all }
  let w := windowOf all (1000 * p.capWindow.toNat)
  { q with
    stacksAvg := Vector.ofFn (fun (r : Fin 4) => satNat 10 ((q.stacksWindow r).1 / (1000 * (q.stacksWindow r).2))),
    now := satNat 24 (power / 1000000), avg := satNat 24 (w.1 / (1000000 * w.2)) }

/-- The ceiling after a comparison of the average power with the cap, and the hold of admission (R87). -/
def Pwr.capped (p : Pwr) : Pwr :=
  let w := windowOf p.waferRuns (1000 * p.capWindow.toNat)
  let cap := 10000000 * p.cap.toNat
  let next := capStep p.ceiling p.ceilRun p.capWindow.toNat cap w
  let lowered := decide (next.1 < p.ceiling)
  let hold := decide (cap * w.2 ≤ w.1) && (p.capHold || p.ceiling == 1)
  { p with
    ceiling := next.1, ceilRun := next.2, capHold := hold, evCap := p.evCap || lowered,
    evCapHold := p.evCapHold || (hold && !p.capHold), throttles := if lowered then satInc p.throttles else p.throttles }

/-- The CAP notice: 1 held, 2 released (Table 14.10). -/
def State.capNotice (s : State) (what : Nat) : State := s.ownerNotice 0x0E (leBytes 1 what)

/-- CAP_UPDATE: the curator's microsecond: telemetry the buses have read, the wafer power, and its average against the cap
(R80, R84, R87); the input's voltage and current are what the POWER command tells (R448). [log DESIGN CHOICE 91] -/
def execCapUpdate (telemetry : List (Rail × Telemetry)) (mv deciAmps : Nat) (s : State) : Out :=
  if !s.pwr.powered then .next s
  else
    let s : State := { s with pwr := { s.pwr with inputMv := mv, inputDa := deciAmps } }
    let s := telemetry.foldl (fun t e => t.takeTelemetry e.1 e.2) s
    let s := if mv ≤ 41000 then s.warn 3 else s
    if !s.fabricRuns then .next s
    else
      let was := s.pwr.capHold
      let t := ({ s with pwr := (s.pwr.sampled s.waferPower).capped } : State).updateFractions
      if t.pwr.capHold && !was then .next (t.capNotice 1)
      else if was && !t.pwr.capHold then .next (t.capNotice 2).settle
      else .next t

/-! ### Alerts (R97 to R99, R442, R449) -/

/-- The folio columns 4–7 are leaf B's. -/
def leafBFolio (f : FolioId) : Bool := decide (4 ≤ folioX f)
/-- The line that gathers a regulator: 0 and 2 the core and stacks regulators of leaf A and B, 1 and 3 the input/output
regulators (R442). An archive board is of the leaf its faces lie in; STBY, which serves no leaf, asserts the line that the
command names. [log DEDUCED 164] -/
def alertLineOf (r : Rail) (named : Fin 4) : Fin 4 :=
  match r with
  | .core f => if leafBFolio f then 2 else 0
  | .stackMem n => if 2 ≤ n.val then 2 else 0
  | .io .stby => named
  | .io (.aon b) | .io (.hphy85 b) | .io (.hphy120 b) | .io (.pphy b) => if b then 3 else 1
  | .io (.vdd1 n) | .io (.vdd2h n) | .io (.vdd2l n) | .io (.vddq n) => if leafBFolio (faceFolio (4 * n.val)) then 3 else 1

/-- Lines that something holds low: an external party, a regulator's alert output, or the coolant monitor (R80, R442). -/
def Pwr.held (p : Pwr) : BitVec 4 :=
  p.alertRails.foldl (fun m e => setBit m e.1.val true) (p.lines ||| (if p.coolant = 0 then 0 else 0b1010))

/-- ALERT_ASSERT: a regulator asserts its alert output, or an external party pulls a line, and the wafer freezes (R80,
R97, R98, R442). -/
def execAlertAssert (line : Fin 4) (rail : Option Rail) (s : State) : Out :=
  if !s.pwr.powered then .next s
  else match rail with
    | none =>
      let m : BitVec 4 := setBit 0 line.val true
      .next (({ s with pwr := { s.pwr with lines := s.pwr.lines ||| m } } : State).assertLines m)
    | some r =>
      let n := alertLineOf r line
      let rails := s.pwr.alertRails.filter (fun e => e.2 != r) ++ [(n, r)]
      .next (({ s with pwr := { s.pwr with alertRails := rails } } : State).assertLines (setBit 0 n.val true))

/-- Lines that nothing holds any more are clear; when all are, the hold count starts (R99). -/
def State.releaseLines (s : State) : State :=
  let p := s.pwr
  let held := p.held
  { s with pwr := { p with
      asserted := held, clearSince := if held = 0 ∧ p.asserted ≠ 0 then some s.ext else p.clearSince } }

/-- ALERT_LINE_CLEAR: a regulator or an external party lets a line go. -/
def execAlertLineClear (line : Fin 4) (rail : Option Rail) (s : State) : Out :=
  match rail with
  | none => .next ({ s with pwr := { s.pwr with lines := setBit s.pwr.lines line.val false } } : State).releaseLines
  | some r =>
    .next ({ s with pwr := { s.pwr with alertRails := s.pwr.alertRails.filter (fun e => e.2 != r) } } : State).releaseLines

/-- An alert holds the wafer, or the binding in POWER, and the test port does not (R97, R113, R452).
[log DEDUCED 135] -/
def State.alertWaits (s : State) : Bool := (s.act == .alert || s.cur.wait == .alertPower) && !s.jtag.holds

/-- ALERT_HOLD_EXPIRY: every line has been clear for more than the hold time (R99). -/
def execAlertHoldExpiry (s : State) : Out :=
  match s.pwr.clearSince with
  | none => .next s
  | some t =>
    if s.alertWaits && s.pwr.asserted == 0 && s.pwr.hold != 0xFFFF && s.pwr.powered &&
        decide (t + 100 * s.pwr.hold.toNat < s.ext) then .next s.leaveAlert
    else .next s

/-- The management target has a clock (R447). -/
def State.mgmtClocked (s : State) : Bool := s.pwr.powered && (s.tickRuns || s.clk.present != 0)
/-- A management write posts its result (Table 19.9). -/
def State.mgmtPost (s : State) (r : CmdResult) : State :=
  { s with mgmt := { s.mgmt with result := r, seq := s.mgmt.seq + 1, acked := true } }
/-- The target does not acknowledge (R447, R448). -/
def State.mgmtNack (s : State) : State := { s with mgmt := { s.mgmt with acked := false } }

/-- RESUME_FROM_ALERT (R447, R449). -/
def execResumeFromAlert (data : Byte) (pecOk : Bool) (s : State) : Out :=
  if !s.mgmtClocked || !pecOk then .next s.mgmtNack
  else if data ≠ 0xA5 then .next (s.mgmtPost .unknown)
  else if s.pwr.asserted ≠ 0 then .next (s.mgmtPost .refusedState)
  else if s.alertWaits then .next (s.mgmtPost .done).leaveAlert
  else match s.act with
    | .alertResume _ => .next (s.mgmtPost .done)
    | _ => .next (s.mgmtPost .refusedState)

/-! ### The coolant monitor (R445) -/

/-- An alert of the coolant monitor: asserted, released or as it was. -/
def hysteresis (was assert release : Bool) : Bool := assert || (was && !release)

/-- An alert bit of the monitor changes, and lines 1 and 3 with it. -/
def State.coolantAlert (s : State) (n : Nat) (on : Bool) : State :=
  let was := s.pwr.coolant
  let s : State := { s with pwr := { s.pwr with coolant := setBit was n on } }
  if on && was == 0 then s.assertLines 0b1010 else s.releaseLines

/-- COOLANT_MEASUREMENT: flow and temperatures, in tenths, against Table 19.8. -/
def execCoolantMeasurement (inlet outlet : Int) (flow : Nat) (s : State) : Out :=
  if !s.pwr.powered then .next s
  else
    let s : State := { s with mgmt := { s.mgmt with inlet := inlet, outlet := outlet, flow := flow } }
    let s := if flow ≤ 280 then s.warn 0 else s
    let s := if 420 ≤ inlet then s.warn 1 else s
    let s := s.coolantAlert 0 (hysteresis (bitOf s.pwr.coolant 0) (decide (flow ≤ 220)) (decide (260 < flow)))
    .next (s.coolantAlert 1 (hysteresis (bitOf s.pwr.coolant 1) (decide (480 ≤ inlet)) (decide (inlet < 450))))

/-- The hottest junction and its folio, the lowest-numbered among equals. [log DEDUCED 97] -/
def State.hottest (s : State) : Nat × FolioId :=
  allFolios.foldl (fun (m : Nat × FolioId) f => if m.1 < (s.folio f).junction then ((s.folio f).junction, f) else m) (0, 0)

/-- JUNCTION_REPORT: a librarian's hottest junction, in °C, against Table 19.8. [log DEDUCED 97] -/
def execJunctionReport (f : FolioId) (celsius : Nat) (s : State) : Out :=
  if !s.pwr.powered then .next s
  else
    let s := s.modFolio f (fun x => { x with junction := celsius })
    let h := s.hottest.1
    let s := if 95 ≤ h then s.warn 2 else s
    .next (s.coolantAlert 2 (hysteresis (bitOf s.pwr.coolant 2) (decide (105 ≤ h)) (decide (h < 100))))

end Sys2Proof.Machine
end

