-- ==== Sys2Proof/Machine/Pass.lean ====
section
/-! DEFINITION. Machine/Pass.lean: a pass from its setting up to its end: copies and input, recalls taken, reports,
release, refresh, shelving, loan periods and the duplex comparison (R144 to R160, R207, R209, R280 to R289, R299,
R352, R353, R423 to R425). -/

namespace Sys2Proof.Machine

/-! ### Setting up (R280, R299) -/

/-- The reservations at the homes of a bay's SRAM are cleared: a copy or a restore has stored to every granule (R244). -/
def State.clearHomes (s : State) (b : BayId) : State :=
  (s.bayCarrels b).foldl (fun t c => t.modHome c.key (fun h => { h with entries := [] })) s

/-- Every carrel's image stands in the volume region of its stacks cell; its timetable is placed over it (R198).
[log DEDUCED 62] -/
def State.copyImage (s : State) (b : BayId) (vslot : Byte) (v : Volume) : State :=
  let s := s.mapBay b (fun _ k => { k with sram := k.stackMem.slice v.region 49152 })
  (s.clearHomes b).placeTables b vslot

/-- With a hit, each carrel's part is copied to BM_SRAM; then the status block of Table 13.2 is written.
[log DESIGN CHOICE 61] -/
def State.placeMarks (s : State) (b : BayId) (p : Pass) : State :=
  match s.bayEntry b, (s.bay b).volume p.req.vslot with
  | some e, some v =>
    if v.delta.isNone then s
    else
      let parts := if p.hit then s.readParts b p.slot (bmBytesOf v) else []
      let put (t : State) (cp : CarrelId × List Byte) : State :=
        t.modCarrel cp.1 (fun k => { k with sram := k.sram.write Memory.blank (bmSramOf v) cp.2 })
      let s := ((s.bayCarrels b).zip parts).foldl put s
      put s (carrelAt (e.x0 + v.inDx) (e.y0 + v.inDy),
        leBytes 1 (b2n p.hit) ++ leBytes 1 (b2n p.writeBm) ++ List.replicate 14 0)
  | _, _ => s

/-- The pass is set up as far as image and bookmark go. -/
def State.marksIfReady (s : State) (b : BayId) : State :=
  match (s.bay b).pass with
  | none => s
  | some p => if p.copied && p.looked then s.placeMarks b p else s

/-- IMAGE_COPY_COMPLETE (R280 step 1). -/
def execImageCopyComplete (b : BayId) (s : State) : Out :=
  match (s.bay b).pass, (s.bay b).running with
  | some p, some v =>
    if (s.bay b).phase = .setup ∧ p.copied = false ∧ s.fabricRuns then
      let t := (s.copyImage b p.req.vslot v).modBay b (fun x => { x with lastSlot := p.req.vslot, warm := false })
      .next ((t.modPass b (fun q => { q with copied := true })).marksIfReady b)
    else .next s
  | _, _ => .next s

/-- The outcome of a lookup (R299 items 3 to 5): hits count and renew the recency; an archive-tier hit moves. The answer
is the offset of the hit's slot in every cell; the parts copied are those that stand there, whatever becomes of the tag.
[log DEDUCED 59] -/
def State.lookup (s : State) (b : BayId) (v : Volume) (p : Pass) : State × Option Nat :=
  let x := s.bay b
  match x.findTag v p.req with
  | none => (s, none)
  | some m =>
    let rest := x.bookmarks.filter (fun o => o != m)
    if !m.archive then
      (s.modBay b (fun y => { y with bookmarks := rest ++ [{ m with recent := p.acc }], bmHits := satInc y.bmHits }),
        some (x.slotAt m.slot))
    else
      match (s.modBay b (fun y => { y with bookmarks := rest })).place b { m with recent := p.acc } with
      | (t, true) =>
        (t.modBay b (fun y => { y with bmOvf := satInc y.bmOvf }),
          ((t.bay b).findTag v p.req).map (fun o => x.slotAt o.slot))
      | (_, false) => (s.modBay b (fun y => { y with bmNoWay := satInc y.bmNoWay }), none)

/-- BOOKMARK_LOOKUP_RESULT: HIT and WRITE are set and the parts copied (R299). [log DEDUCED 59] -/
def execBookmarkLookupResult (b : BayId) (s : State) : Out :=
  match (s.bay b).pass, (s.bay b).running with
  | some p, some v =>
    if (s.bay b).phase = .setup ∧ p.looked = false ∧ s.fabricRuns then
      let (t, hit) := s.lookup b v p
      .next ((t.modPass b (fun q =>
        { q with looked := true, hit := hit.isSome, slot := hit.getD 0, writeBm := true })).marksIfReady b)
    else .next s
  | _, _ => .next s

/-- INPUT_WRITE_COMPLETE: the input stands in the ingress carrel, and START is issued (R280 steps 2 and 3, R332). -/
def execInputWriteComplete (b : BayId) (s : State) : Out :=
  match s.bayEntry b, (s.bay b).pass, (s.bay b).running with
  | some e, some p, some v =>
    if (s.bay b).phase = .setup ∧ p.copied ∧ p.looked ∧ p.inputDone = false ∧ s.fabricRuns then
      let c := carrelAt (e.x0 + v.inDx) (e.y0 + v.inDy)
      let t := if p.writeBm then s else s.placeMarks b p
      let t := t.modCarrel c (fun k => { k with sram := k.sram.write Memory.blank v.inBase p.req.input })
      let t := if s.isSecond b then t else t.freeSlot p.req
      let t := t.modPass b (fun q => { q with inputDone := true, startIssued := true })
      .next (t.issueWord b { op := 1 }).settle
    else .next s
  | _, _, _ => .next s

/-! ### Recalls taken (R144 to R151) -/

/-- A carrel takes the recall at its boundary: pc and pg stand as R146 says, and the reservation is lost (R243). A
long instruction restored and not yet re-issued keeps its pg. [log DEDUCED 21] -/
def Carrel.takeRecall (k : Carrel) (cause : BitVec 4) : Carrel :=
  let rc := k.regs.rc
  let rc := { rc with cause := cause, recalls := if cause = recallPreempt then satInc rc.recalls else rc.recalls }
  let pg : PgReg := match k.long with
    | some (op, n) => { next := BitVec.ofNat 24 n, opcode := op, valid := true }
    | none => if k.regs.pg.valid then k.regs.pg else {}
  { k with run := .quiescing, long := none, reserved := none, regs := { k.regs with rc := rc, pg := pg } }

/-- RECALL_TAKEN: a carrel reaches its boundary, where an overrun stopped it too; one that faulted records the cause alone
(R146, R151). -/
def execRecallTaken (c : CarrelId) (s : State) : Out :=
  let k := s.carrel c
  match k.bay with
  | none => .next s
  | some b =>
    match (s.bay b).pass with
    | none => .next s
    | some p =>
      if !s.fabricRuns || p.recallIn == 0 then .next s
      else match k.run with
        | .recalling | .overrun => .next (s.setCarrel c (k.takeRecall p.recallIn))
        | .faulted =>
          let regs := { k.regs with rc := { k.regs.rc with cause := p.recallIn } }
          .next (s.setCarrel c { k with reserved := none, regs := regs })
        | _ => .next s

/-- A packet of a carrel's accesses is still on its way: a request it sent, or a reply to it. -/
def State.underWay (s : State) (c : CarrelId) : Bool :=
  let mine (p : Packet) : Bool :=
    if p.reply then p.dw == s.ownWafer && p.dport.toNat < 16 && p.dstCarrel == c
    else p.sw == s.ownWafer && p.sport.toNat < 16 && p.srcCarrel == c
  s.net.any (fun t => mine t.pkt) || s.routers.any (fun e => e.2.buf.any (fun q => mine q.pkt))

/-- Every access the carrel started has completed; under a terminating recall those whose packet was lost are over
(R147, R224). [log DEDUCED 25] -/
def State.accessesDone (s : State) (c : CarrelId) (cause : BitVec 4) : Bool :=
  let k := s.carrel c
  (k.loads.isEmpty && k.stores.isEmpty) || (cause != recallPreempt && !s.underWay c)

/-- QUIESCENCE: a recalled carrel reports that everything it started has completed (R147). -/
def execQuiescence (c : CarrelId) (s : State) : Out :=
  let k := s.carrel c
  match k.bay with
  | none => .next s
  | some b =>
    match (s.bay b).pass with
    | none => .next s
    | some p =>
      if !s.fabricRuns || (s.bay b).phase != .recalled || k.repQuiesced || p.quiesced.contains c.key ||
          !s.accessesDone c p.recallIn then .next s
      else match k.run with
        | .quiescing => .next (s.setCarrel c { k with run := .quiesced, loads := [], stores := [], repQuiesced := true })
        | .faulted => .next (s.setCarrel c { k with loads := [], stores := [], repQuiesced := true })
        | _ => .next s

/-! ### Reports at the librarians (Table 8.6) -/

/-- A carrel of a bay has made a report that has not arrived. -/
def State.reports (s : State) (b : BayId) (c : CarrelId) (which : Carrel → Bool) : Bool :=
  s.fabricRuns && (s.carrel c).bay == some b && which (s.carrel c) && (s.bay b).pass.isSome

/-- QUIESCED: counts toward bay quiescence. -/
def execQuiesced (b : BayId) (c : CarrelId) (s : State) : Out :=
  if s.reports b c (fun k => k.repQuiesced) then
    let t := s.modCarrel c (fun k => { k with repQuiesced := false })
    .next ((t.modPass b (fun p => { p with quiesced := p.quiesced ++ [c.key] })).quiescentBay b).settle
  else .next s

/-- EXITED: counts toward completion of the pass. [log DEDUCED 25] -/
def execExited (b : BayId) (c : CarrelId) (s : State) : Out :=
  if s.reports b c (fun k => k.repExited) then
    let t := s.modCarrel c (fun k => { k with repExited := false })
    .next ((t.modPass b (fun p => { p with exited := p.exited ++ [c.key] })).checkComplete b)
  else .next s

/-- The CRC flit has reached a bay's egress carrel. -/
def State.crcArrived (s : State) (b : BayId) : Bool :=
  match s.bayEntry b with
  | none => false
  | some e => (s.carrel e.egress).regs.switch.rxDone.isSome
/-- An error report has reached the egress carrel's librarian, and its recall is issued. -/
def State.errorReport (s : State) (b : BayId) (e : Ending) : State :=
  (s.modPass b (fun p => { p with report := true })).stopPass b e
/-- The report of an overrun: a payload whose CRC flit had reached egress before it is not withheld for it (R94); the cycle
of an overrun is that of its carrel's stop, which `Pass.late` holds. [log DEDUCED 55] -/
def State.overrunReport (s : State) (b : BayId) (e : Ending) : State :=
  if s.crcArrived b then s.stopPass b e else s.errorReport b e

/-- FAULT: a FAULT recall (R142, Table 6.4). -/
def execFault (b : BayId) (c : CarrelId) (s : State) : Out :=
  if s.reports b c (fun k => k.repFault) then
    let code := (s.carrel c).regs.st.fcode
    .next ((s.modCarrel c (fun k => { k with repFault := false })).errorReport b (s.faulted code)).settle
  else .next s

/-- OVERRUN: an ABORT recall; the overrun counts and lowers the folio's backoff ceiling (R94, R311). -/
def execOverrun (b : BayId) (c : CarrelId) (s : State) : Out :=
  if s.reports b c (fun k => k.repOverrun) then
    let t := s.modCarrel c (fun k => { k with repOverrun := false })
    let t := t.modFolio c.folio (fun x =>
      { x with overruns := satInc x.overruns, ceiling := if x.ceiling = 0 then 0 else x.ceiling - 1 })
    let t : State := { t with
      pwr := { t.pwr with overruns := satInc t.pwr.overruns }, portRegs := { t.portRegs with evTrimBackoff := true } }
    .next ((t.trimEval c.folio).overrunReport b (s.aborted 1)).settle
  else .next s

/-- PLANE: an ABORT recall (R202). -/
def execPlane (b : BayId) (c : CarrelId) (s : State) : Out :=
  if s.reports b c (fun k => k.repPlane) then
    let t := s.modCarrel c (fun k => { k with repPlane := false })
    let t : State := { t with int := { t.int with evPlane := true } }
    .next (t.errorReport b (s.aborted 2)).settle
  else .next s

/-! ### Release, comparison, refresh (R209, R282, R423 to R425) -/

/-- The report horizon of a bay: the longest that a report takes to the egress carrel's librarian, 3 cycles up its
folio's tree and the spine from there (R207, R209). -/
def BayEntry.horizon (e : BayEntry) : Nat := e.folios.foldl (fun m f => max m (3 + spineDelay f e.egress.folio)) 3
/-- L(f), the cycles of a dilated beat (R89). -/
def beatCycles (frac : Nat) : Nat := (256 + frac - 1) / max 1 frac
/-- The release boundary has come: the first beat boundary at or after the arrival of the CRC flit plus H (R209). The
working cycles of a dilated beat are taken to come first. [log DESIGN CHOICE 169] -/
def State.releaseDue (s : State) (b : BayId) (e : BayEntry) : Bool :=
  let sw := (s.carrel e.egress).regs.switch
  let l := beatCycles (s.bay b).frac
  let due := (sw.rxAt / 16 * l + sw.rxAt % 16 + e.horizon + l - 1) / l
  (s.bay b).phase != .running || decide (16 * due ≤ sw.w)

/-- EGRESS_RELEASE: the release boundary of a pass whose CRC flit has arrived. A duplex pass waits for the
comparison (R209, R423). [log DEDUCED 55] -/
def execEgressRelease (b : BayId) (s : State) : Out :=
  let x := s.bay b
  match s.bayEntry b, x.pass with
  | some e, some p =>
    let later := x.phase == .running || x.phase == .recalled || x.phase == .shelvingOut
    if !s.fabricRuns || p.gated || !s.crcArrived b || !later || !s.releaseDue b e then .next s
    else
      let t := s.modPass b (fun q => { q with gated := true })
      let t := if (s.partner b).isSome then t else t.releasePass b
      .next (t.checkComplete b).settle
  | _, _ => .next s

/-- The first byte in which two payloads differ. -/
def firstDiff (a b : List Byte) : Nat := (((a.zip b).takeWhile (fun q => q.1 == q.2)).length)

/-- A mismatch is captured when the capture is free (R425). -/
def State.mismatch (s : State) (b c : BayId) (p : Pass) (offset : Nat) : State :=
  let i := { s.int with mismatches := satInc s.int.mismatches, evMismatch := true }
  let i := if i.misValid then i
    else { i with misAcc := p.acc, misFirst := b, misSecond := c, misOffset := BitVec.ofNat 12 offset, misValid := true }
  let t : State := { s with int := i }
  let t := match (t.bay b).volume p.req.vslot with
    | none => t
    | some v => t.modBay b (fun x => x.dropTag v p.req)
  t.ownerNotice 0x07 (leBytes 8 p.acc.toNat ++ leBytes 2 b.toNat ++ leBytes 2 c.toNat)

/-- DUPLEX_COMPARE: both payloads stand at the comparator (Table 18.4 rows 1 and 2, R425); at its loan period the request
is overdue, and nothing is compared (R11, R159). [log DEDUCED 56, 103] -/
def execDuplexCompare (b : BayId) (s : State) : Out :=
  match s.partner b, (s.bay b).pass with
  | some c, some p =>
    match (s.bay c).pass with
    | none => .next s
    | some q =>
      match p.payload, q.payload with
      | some pa, some qa =>
        if s.isSecond b || !p.gated || !q.gated || p.recorded || q.recorded || p.acc != q.acc || !p.releasable ||
            !q.releasable || p.report || q.report || p.late || q.late || s.cur.taking || !s.fabricRuns then .next s
        else if s.loanReached p then .next (s.stopPass b s.overdue).settle
        else
          let t : State := { s with int := { s.int with compared := satInc s.int.compared } }
          let done (u : State) : State :=
            ((u.modPass c (fun r => { r with released := decide (pa = qa), recorded := true })).checkComplete b).checkComplete c
          if pa = qa then .next (done (t.releasePass b)).settle
          else
            let e := s.ending 3 0 recallFault
            let t := (t.endRequest b { p with faultFirst := false } e false).modPass b (fun r => { r with recorded := true, ending := some e })
            .next (done (t.mismatch b c p (firstDiff pa qa))).settle
      | _, _ => .next s
  | _, _ => .next s

/-- REFRESH_COMPLETE: the bookmark is written back, then the work span of the image stands again, and the bay is warm
(R282, R303); `ecc` is what SECDED found in the words the write-back read (R138). [log DEDUCED 63, 166] -/
def execRefreshComplete (b : BayId) (ecc : List (CarrelId × Ecc)) (s : State) : Out :=
  if (s.bay b).phase ≠ .refreshing ∨ s.fabricRuns = false then .next s
  else
    let s := s.endWriteBack b ecc
    let x := s.bay b
    let t := match x.volume x.lastSlot with
      | none => s
      | some v =>
        let n := 49152 - v.workBase
        let t := s.mapBay b (fun _ k => { k with sram := k.sram.paste v.workBase n (k.stackMem.slice (v.region + v.workBase) n) })
        let t := (s.bayCarrels b).foldl (fun (u : State) (c : CarrelId) => u.clearGranules c.key v.workBase n) t
        t.placeTables b x.lastSlot
    .next (t.modBay b (fun y => { y.take true with warm := y.next.isEmpty && (x.volume x.lastSlot).isSome })).settle

/-! ### Shelving (R288, R289, R150) -/

/-- A carrel's state stands in SAVE; its registers are free for the next pass. [log DESIGN CHOICE 61] -/
def Carrel.shelveOut (k : Carrel) : Carrel :=
  { k.leave with save := some { regs := k.regs, sram := k.sram, exited := k.exitDone } }
/-- A carrel has its state back (R288); the librarian's allowance is the folio's. The fields marked "pass" (st.FCODE,
FAULTED, OVERRUN, REPLAYS and rc.RECALLS) come back with the rest: the pass they count for is the one restored
(R149, R158, Case 12.1). A recall pending meanwhile stays so (R150). [log DESIGN CHOICE 61; DEDUCED 170] -/
def Carrel.shelveIn (k : Carrel) (b : BayId) (ticket : BitVec 16) (counted : Bool) (allow : BitVec 2) : Carrel :=
  match k.save with
  | none => k
  | some v =>
    let rc := { v.regs.rc with pending := k.regs.rc.pending, pendingCause := k.regs.rc.pendingCause }
    { k with regs := { v.regs with st := { v.regs.st with allow := allow }, rc := rc }, sram := v.sram, save := none,
             run := .quiesced, exitDone := v.exited, repExited := v.exited && !counted, bay := some b, ticket := ticket }

/-- SHELVE_OUT_COMPLETE: the pass is shelved; a terminating recall issued for it meanwhile is taken instead, and its state
is discarded (R150), as after a double-bit error in a word that shelving read (R138). [log DEDUCED 66, 166] -/
def execShelveOutComplete (b : BayId) (ecc : List (CarrelId × Ecc)) (s : State) : Out :=
  let x := s.bay b
  match x.pass with
  | none => .next s
  | some p =>
    if x.phase ≠ .shelvingOut ∨ s.fabricRuns = false then .next s
    else
      let s := ecc.foldl (fun t q => t.countSram q.1.folio q.2) s
      match ecc.find? (fun q => q.2.bad) with
      | some q =>
        let t := s.modCarrel q.1 (fun k => k.raise faultSramUe)
        .next ((t.stopPassOne b (t.faulted faultSramUe)).endPending b recallFault).settle
      | none =>
        if p.stopped ≠ 0 then .next (s.endPending b p.stopped).settle
        else if (s.bayCarrels b).any (fun c => (s.carrel c).regs.st.overrun) then
          .next ((s.stopPassOne b (s.aborted 1)).endPending b recallAbort).settle
        else
          let t := s.mapBay b (fun _ k => k.shelveOut)
          .next (t.modBay b (fun y =>
            { (y.take false).dropWords with shelved := some p, urgentDone := 0, warm := false })).settle

/-- The cause pending on the carrels of a bay; 0 none. -/
def State.pendingCause (s : State) (b : BayId) : BitVec 4 :=
  (s.bayCarrels b).foldl (fun m c =>
    let rc := (s.carrel c).regs.rc
    if rc.pending then recallMax m rc.pendingCause else m) 0

/-- SHELVE_IN_COMPLETE: the pass stands in its carrels again, and RESUME is issued (R289); a terminating recall that was
pending is taken first, and a pending PREEMPT goes out with RESUME (R150, R206). `ecc` is what SECDED found in the words
that a write-back still under way read. [log DEDUCED 66, 166] -/
def execShelveInComplete (b : BayId) (ecc : List (CarrelId × Ecc)) (s : State) : Out :=
  match (s.bay b).shelved with
  | none => .next s
  | some p =>
    if (s.bay b).phase ≠ .shelvingIn ∨ s.fabricRuns = false then .next s
    else
      let s := s.endWriteBack b ecc
      let cause := s.pendingCause b
      let t := (s.mapBay b (fun c k =>
        k.shelveIn b (p.epoch ++ p.req.reader) (p.exited.contains c.key) (s.folio c.folio).allow)).clearHomes b
      let t := t.modBay b (fun y =>
        { y with phase := .resumeIssued, shelved := none, pass := some { p with quiesced := [], recallIn := 0 },
                 lastSlot := p.req.vslot })
      if cause = 0 ∨ cause = recallPreempt then
        .next ((t.mapBay b (fun _ k => { k with regs := { k.regs with
          rc := { k.regs.rc with pending := false, pendingCause := 0 } } })).issueWord b { op := 2, recallIn := cause }).settle
      else .next (t.endPending b cause).settle

/-! ### Loan periods (R159, R160, R352, R353) -/

/-- A pass's elapsed ticks have reached its pass loan, and its payload has not been released. -/
def State.passOverdue (s : State) (p : Pass) : Bool :=
  decide (p.passLoan.toNat ≤ s.since p.admitted) && !p.released && !p.recorded
/-- The shelved pass of a bay, and of its duplex partner, ends (R160, R422). -/
def State.dropShelved (s : State) (b : BayId) (e : Ending) : State := (s.pair b).foldl (fun t c => t.endShelved c e) s

/-- A pass of a bay is overdue: running, it is recalled; waiting for the carrels, or shelved, it ends. -/
def State.overduePass (s : State) (b : BayId) (shelved : Bool) (test : Pass → Bool) : State :=
  let x := s.bay b
  let e := s.overdue
  if shelved then
    match x.shelved with
    | none => s
    | some p => if test p then s.dropShelved b e else s
  else
    let s := x.next.foldl (fun t p => if test p then (t.pair b).foldl (fun u c =>
      match (u.bay c).next.find? (fun q => q.acc == p.acc) with
      | none => u
      | some q => u.endNext c q e) t else t) s
    match x.pass with
    | none => s
    | some p => if test p then s.stopPass b e else s

/-- PASS_LOAN_EXPIRY (R159, R160). -/
def execPassLoanExpiry (b : BayId) (shelved : Bool) (s : State) : Out :=
  if s.tickRuns then .next (s.overduePass b shelved s.passOverdue).settle else .next s

/-- REQUEST_LOAN_EXPIRY: the curator ends the request OVERDUE, wherever its pass stands (R353). -/
def execRequestLoanExpiry (accession : DWord) (s : State) : Out :=
  let test (p : Pass) : Bool :=
    p.acc == accession && decide (p.reqLoan.toNat ≤ s.since p.admitted) && !p.released && !p.recorded
  let firsts := s.bayIds.filter (fun b => !s.isSecond b)
  if s.tickRuns then
    .next (firsts.foldl (fun t b => (t.overduePass b true test).overduePass b false test) s).settle
  else .next s

/-- STACKS_REFRESH: a refresh slot blocks the cell's port for up to 220 cycles, and the carrel's own requests go first after
it; it is held off while the port shelves (R139, R140). [log DESIGN CHOICE 154] -/
def execStacksRefresh (c : CarrelId) (s : State) : Out :=
  if s.portShelves c then .next s else .next (s.modCarrel c (fun k => { k with cellTurn := true }))

end Sys2Proof.Machine
end

