-- ==== Sys2Proof/Machine/Peer.lean ====
section
/-! DEFINITION. Machine/Peer.lean: peer links: training, codewords, replay, failure and crossings (chapter 16, R420). -/

namespace Sys2Proof.Machine

/-! ### Training (R367 to R369, R420) -/

/-- The peer ports have a clock: the binding is powered, and its reference runs (R63, R383). -/
def State.peersRun (s : State) : Bool := s.pwr.powered && s.tickRuns

/-- A stage of training is under way on a link. -/
def State.trains (s : State) (l : LinkId) (stage : Nat) : Bool :=
  s.peersRun && (s.link l).state == .training && (s.link l).stage == stage

/-- A failed stage: the link is out of service and trains again 10 ms later. [log DEDUCED 137] -/
def State.stageFailed (s : State) (l : LinkId) (dest : LinkState) : State :=
  s.modLink l (fun k => { k with state := dest, stage := 0, passed4 := false, retryAt := some (s.ext + 1000000) })

/-- ELECTRICAL_STAGE: equaliser training and FEC lock complete, or fail (stage 1). -/
def execElectricalStage (l : LinkId) (ok : Bool) (s : State) : Out :=
  if !s.trains l 1 then .next s
  else if ok then .next (s.modLink l (fun k => { k with stage := 2 }))
  else .next (s.stageFailed l .failed)

/-- The partner's identity matches R366. -/
def State.identityOk (s : State) (l : LinkId) (q : PartnerId) : Bool :=
  q.catId == s.lnk.catId && q.shape == s.lnk.shape &&
    q.coord == neighbourWafer s.lnk.shape s.lnk.coord (linkDir l) &&
    q.dir.toNat == (if linkDir l % 2 = 0 then linkDir l + 1 else linkDir l - 1) && q.link.toNat == linkNum l

/-- IDENTITY_STAGE: the partner is the one R366 names, or the link is miswired (stage 2). -/
def execIdentityStage (l : LinkId) (partner : PartnerId) (s : State) : Out :=
  if !s.trains l 2 then .next s
  else if s.identityOk l partner then
    .next (s.modLink l (fun k => { k with stage := 3, partner := some (partner.serial, partner.freq) }))
  else .next (({ s with lnk := { s.lnk with evMiswired := true } } : State).stageFailed l .miswired)

/-- An offset below 0.1 ppm: mesochronous (R368). -/
def mesochronous (offset : Word) : Bool := decide (offset.toInt.natAbs < 100)

/-- FREQUENCY_STAGE: the link enters routed service once its FEC and CRC pass the audit of class 15; a mesochronous
one goes on to stage 4 (stage 3, R420). [log DEDUCED 137, 138] -/
def execFrequencyStage (l : LinkId) (offset : Word) (auditOk : Bool) (s : State) : Out :=
  if !s.trains l 3 then .next s
  else if !auditOk then
    let t := s.linkFail l
    let t := t.modLink l (fun k => { k with disable := true })
    .next { t with int := { t.int with failed := setBit t.int.failed 15 true } }
  else
    let back := (s.link l).lastGood != 0
    let meso := mesochronous offset
    let t := s.modLink l (fun k =>
      { k with state := if meso then .mesochronous else .routed, stage := if meso then 4 else 0, passed4 := false,
               offset := offset, offValid := true, rxSeq := none, txAck := none, nackSent := false, replayAt := [],
               words := [], partial_ := [], lastGood := s.ext, retryAt := none })
    if back then .next ((({ t with lnk := { t.lnk with evRestored := true } } : State).linkNotice 2 l).settle)
    else .next t.settle

/-- LATENCY_STAGE: 64 round trips, in unit intervals of 18.8 ps, agree within 2 and give at most 400 ns one way; L is
half the largest, rounded up to a picosecond (stage 4, R369). [log DEDUCED 137] -/
def execLatencyStage (l : LinkId) (roundTrips : List Nat) (s : State) : Out :=
  if !(s.peersRun && (s.link l).state == .mesochronous && (s.link l).stage == 4) then .next s
  else
    let big := roundTrips.foldl max 0
    let small := roundTrips.foldl min big
    if roundTrips.length = 64 ∧ big ≤ small + 2 ∧ 94 * big ≤ 4000000 then
      .next (s.modLink l (fun k =>
        { k with stage := 0, passed4 := true, latency := satNat 20 ((94 * big + 9) / 10) })).settle
    else .next (s.modLink l (fun k => { k with state := .routed, stage := 0, passed4 := false }))

/-- LINK_RETRAIN: 10 ms after it left service, a link that is not disabled trains again (R367). -/
def execLinkRetrain (l : LinkId) (s : State) : Out :=
  match (s.link l).retryAt with
  | none => .next s
  | some t =>
    if s.peersRun && decide (t ≤ s.ext) && s.linkMayTrain l then
      .next (s.modLink l (fun k => { k with state := .training, stage := 1, retryAt := none }))
    else .next s

/-- LINK_OFFSET_WINDOW: the offset of another 100,000 ticks; a link that becomes plesiochronous loses its crossing,
one that becomes mesochronous again runs stage 4 (R368, R375). -/
def execLinkOffsetWindow (l : LinkId) (offset : Word) (s : State) : Out :=
  let k := s.link l
  if !s.peersRun || !k.inService then .next s
  else
    let was := k.offValid && mesochronous k.offset
    let now := mesochronous offset
    let t := s.modLink l (fun k => { k with offset := offset, offValid := true })
    if was && !now then
      let t := t.modLink l (fun k => { k with state := .routed, stage := 0, passed4 := false })
      .next (({ t with lnk := { t.lnk with evMesoLost := true } } : State).failCrossing l).settle
    else if !was && now then
      .next (t.modLink l (fun k => { k with state := .mesochronous, stage := 4, passed4 := false }))
    else .next t

/-! ### Codewords (R365, R371, R374, R377) -/

/-- One replay is counted; the ninth within a window of 600 ticks fails the link. [log DEDUCED 139] -/
def State.countReplay (s : State) (l : LinkId) : State :=
  let t := s.modLink l (fun k =>
    { k with replays := satInc k.replays, replayAt := k.replayAt.filter (fun r => decide (s.ext < r + 600)) ++ [s.ext] })
  if 8 < (t.link l).replayAt.length then t.linkFail l else t

/-- A control word of the crossing's bay, from another wafer, merges with the bay's own word of that boundary (R203,
R205, R371). [log DEDUCED 44] -/
def State.crossWord (s : State) (b : BayId) (f : FolioId) (w : Word) : State :=
  if controlOk w then s.issueWord b (wordFields w) else s.badControl f 1

/-- A report of another wafer's part reaches the bay's librarian (Table 8.6, R374): an error stops the pass.
[log DEDUCED 45; DESIGN CHOICE 46] -/
def State.crossReport (s : State) (b : BayId) (code : Nat) : State :=
  match code with
  | 3 => s.errorReport b (s.ending 3 0 recallFault)
  | 4 => s.errorReport b (s.aborted 1)
  | 5 => s.errorReport b (s.aborted 5)
  | _ => s

/-- What the control slot of a codeword carries, for the bay whose crossing the link has. [log DEDUCED 45] -/
def State.crossControl (s : State) (l : LinkId) (ctype : BitVec 4) (w : Word) : State :=
  match s.linkCrossing l with
  | none => s
  | some e =>
    match ctype.toNat with
    | 1 => s.crossWord e.bay (linkFolio l) w
    | 2 => s.crossReport e.bay (natBits w.toNat 0 3)
    | _ => s

/-- The words of a codeword taken in order: the flits of routed ones gather to a packet, which enters the plane at the attach
port; scheduled ones, of a mesochronous link alone (R78), wait for their delivery cycle. [log DEDUCED 44] -/
def State.deliverWord (s : State) (l : LinkId) (w : LinkWord) : State :=
  match w with
  | .idle => s
  | .routed w =>
    if !linkValid w then s
    else
      let fs := (if linkHead w then [] else (s.link l).partial_) ++ [linkBody w]
      if !linkTail w then s.modLink l (fun k => { k with partial_ := fs })
      else
        let t := s.modLink l (fun k => { k with partial_ := [] })
        (match fs with
         | head :: op :: data =>
           let p := Packet.ofFlits head op data
           t.inject (linkAlcove l) 8 [{ p with cls := s.arriveClass p l }]
         | _ => t)
  | .scheduled f => if (s.linkCrossing l).isSome && (s.link l).state == .mesochronous then s.modLink l (fun k => { k with words := k.words ++ [f] }) else s

/-- What a TRAIN codeword says of the partner, in service: a changed serial fails the link, a changed frequency code
its crossing (R375, R377). The Bool says that the link failed. [log DEDUCED 140] -/
def State.partnerCheck (s : State) (l : LinkId) (cw : Codeword) : State × Bool :=
  if cw.kind ≠ 2 then (s, false)
  else match (s.link l).partner with
    | none => (s, false)
    | some q =>
      if q.1 ≠ cw.serial then (s.linkFail l, true)
      else if q.2 = cw.freq then (s, false)
      else ((s.modLink l (fun k => { k with partner := some (cw.serial, cw.freq) })).failCrossing l, false)

/-- A good codeword: its acknowledgement, and its words where it is the next in order. [log DEDUCED 139] -/
def State.goodCodeword (s : State) (l : LinkId) (cw : Codeword) : State :=
  let s := s.modLink l (fun k =>
    { k with lastGood := s.ext, fecCe := if cw.corrected then satInc k.fecCe else k.fecCe,
             txAck := if cw.ackValid then some cw.ack else k.txAck })
  match s.partnerCheck l cw with
  | (t, true) => t
  | (s, false) =>
    let next := match (s.link l).rxSeq with
      | none => true
      | some q => cw.seq == q + 1
    let s := if next then
        let t := s.modLink l (fun k => { k with rxSeq := some cw.seq, nackSent := false })
        (cw.words.foldl (fun t w => t.deliverWord l w) t).crossControl l cw.ctype cw.ctrl
      else s
    if cw.nack then s.countReplay l else s

/-- CODEWORD: a good codeword is acknowledged and its words delivered; one that is not good is answered with NACK,
which is a replay; a frozen one fails the link (R365, R377). [log DEDUCED 139; DESIGN CHOICE 155] -/
def execCodeword (l : LinkId) (cw : Codeword) (s : State) : Out :=
  if !s.peersRun || !(s.link l).inService then .next s
  else if !cw.good then .next ((s.modLink l (fun k => { k with nackSent := true })).countReplay l).settle
  else if cw.kind = 3 then .next (s.linkFail l).settle
  else .next (s.goodCodeword l cw).settle

/-- LINK_SILENCE: no good codeword for 100 ticks (R377). -/
def execLinkSilence (l : LinkId) (s : State) : Out :=
  if s.peersRun && (s.link l).inService && decide ((s.link l).lastGood + 100 ≤ s.ext) then .next (s.linkFail l).settle
  else .next s

/-- CROSSING_DEADLINE: a word's delivery cycle has come without its codeword good; the port reports PLANE and the pass
ends ABORTED_RETRY with DETAIL 0x5 (R374). -/
def execCrossingDeadline (l : LinkId) (s : State) : Out :=
  match s.linkCrossing l with
  | none => .next s
  | some e =>
    if s.fabricRuns && (s.bay e.bay).phase == .running then
      let t : State := { s with int := { s.int with evPlane := true } }
      .next (t.errorReport e.bay (t.aborted 5)).settle
    else .next s

/-! ### Abort waves and ready reports (R379, R381) -/

/-- The bay of a CAT_BAY that spans wafers. -/
def State.catBayOf (s : State) (catBay : Word) : Option BayId :=
  match s.cdx.codex with
  | none => none
  | some x => (x.bays.find? (fun e => e.spans && e.catBay == catBay)).map (fun e => e.bay)

/-- A message of a type for a curator arrives: off its wire, or from a curator's own link. The state without it, or with the
answer CRC where its PCRC fails, which performs nothing (R215). [log DESIGN CHOICE 47] -/
def State.takeControl (s : State) (p : Packet) (type : BitVec 4) (perform : Packet → State → Out) : Out :=
  match s.nextPacket .endpoint p with
  | none => .next s
  | some w =>
    let q := w.pkt
    if !s.fabricRuns || q.type != type || q.reply || !Packet.typeOk q || q.dport != 16 || s.isBlocked q.dstFolio ||
        !(curatorAlcoves false ++ curatorAlcoves true).contains (alcoveAt q.dax.toNat q.day.toNat) then .next s
    else if q.crcOk then perform q (s.takeOff .endpoint p)
    else .next ((s.takeOff .endpoint p).crcRefused q)

/-- CTRL: a following curator's part becomes ready, or stops being ready (R381): the operands are what the message says,
whose layout the spec does not give. [log DEDUCED 143; DESIGN CHOICE 47] -/
def execCtrl (p : Packet) (catBay : Word) (wafer : BitVec 11) (ready : Bool) (s : State) : Out :=
  s.takeControl p 8 (fun _ s =>
    match s.catBayOf catBay with
    | none => .next s
    | some b =>
      .next (s.modBay b (fun x =>
        let rest := x.partsNotReady.filter (fun w => w != wafer)
        { x with partsNotReady := if ready then rest else rest ++ [wafer] })).settle)

/-- ABORT: a wave reaches this wafer. One already recorded changes nothing, nor does one for a bay that is already
aborted, but for the conflict of two sets (R379, R382). [log DEDUCED 142; DESIGN CHOICE 47] -/
def execAbort (p : Packet) (s : State) : Out :=
  s.takeControl p 9 (fun q s =>
    let wave := waveOf (flitBytes q.data)
    match s.catBayOf wave.catBay with
    | none => .next s
    | some b =>
      let x := s.bay b
      let seen := x.waves.contains (wave.origin, wave.wave)
      let s : State := { s with lnk := { s.lnk with received := satInc s.lnk.received } }
      if seen then .next s
      else if x.waveSet.isSome then .next (s.chooseSet b wave.set.toNat).settle
      else
        let s := s.modBay b (fun y => { y with waves := y.waves ++ [(wave.origin, wave.wave)] })
        .next (((s.forwardWave b wave (some q.sw)).chooseSet b wave.set.toNat).abortBay b (s.aborted 5)).settle)

end Sys2Proof.Machine
end

