-- ==== Sys2Proof/Machine/HostLink.lean ====
section
/-! DEFINITION. Machine/HostLink.lean: ring pointers, enables and windows, the book drop, MSI-X times, the hold
shelf's expiry, and the resets and links of the host ports (chapter 14, R356 to R360). -/

namespace Sys2Proof.Machine

/-- A host's accesses arrive at a function: power, the port's link, and the function exist, and self-audit left the
port in service. -/
def State.hostLinked (s : State) (r : ReaderId) : Bool :=
  s.pwr.powered && (s.port (readerPort r)).linkUp && s.portInService (readerPort r) && s.fnExists r
/-- They take effect: a curator presides. [log DEDUCED 151] -/
def State.hostReaches (s : State) (r : ReaderId) : Bool := !s.cur.lost && s.hostLinked r
/-- A posted write waits in the function's port controller in service, during a wafer reset: the accesses of a port that
arrive after it are not yet performed, nor is a read completed (R248, R249). [log DEDUCED 68] -/
def State.behindWrite (s : State) (r : ReaderId) : Bool :=
  s.isReady && !s.frozen && !s.cur.lost && !(s.port (readerPort r)).waiting.isEmpty
/-- A write of one of a function's registers takes effect: the function is reached, writes are not dropped, and none that
arrived earlier waits. -/
def State.rdrWrites (s : State) (r : ReaderId) : Bool := s.hostReaches r && !s.writesDropped && !s.behindWrite r

/-! ### Requests (R322, R326, R331) -/

/-- DOORBELL: a write of RDR.REQ_TAIL; it waits in the port controller in a dead freeze or before READY (R326).
[log DEDUCED 68] -/
def execDoorbell (r : ReaderId) (tail : BitVec 12) (s : State) : Out :=
  if !s.hostReaches r then .next s
  else if s.captureWaits then
    .next (s.waitWrite r (.doorbell tail))
  else .next (s.doorbell r tail).settle

/-- BOOK_DROP_COMMIT: a COMMIT piece captures a free slot while DROP_EN is set (R331); it waits as a doorbell does. -/
def execBookDropCommit (r : ReaderId) (slot : Fin 8) (word : DWord) (s : State) : Out :=
  if !s.hostReaches r then .next s
  else if s.captureWaits then .next (s.waitWrite r (.drop (512 * slot.val + 504) (leBytes 8 word.toNat)))
  else .next (s.commitPiece r slot word).settle

/-- BOOK_DROP_WRITE: a host write to book-drop slots, in pieces of 8 bytes, rising (R331, R248); it waits as a doorbell
does. -/
def execBookDropWrite (r : ReaderId) (offset : Nat) (bytes : List Byte) (s : State) : Out :=
  if !s.hostReaches r then .next s
  else if s.captureWaits then .next (s.waitWrite r (.drop offset bytes))
  else .next (s.dropWrite r offset bytes).settle

/-! ### Ring pointers and configuration (R320 to R325) -/

/-- A new head frees no more than was written and is not yet freed (R325). -/
def Ring.headOk (g : Ring) (head : BitVec 12) : Bool :=
  decide (head.toNat < g.entries) && decide ((head.toNat + g.entries - g.head.toNat) % g.entries ≤ g.unfreed)

/-- VER_HEAD (R323, R325). -/
def execVerHead (r : ReaderId) (head : BitVec 12) (s : State) : Out :=
  if !s.rdrWrites r then .next s
  else if (s.reader r).verRing.headOk head then
    .next (s.modReader r (fun x => { x with verRing := { x.verRing with head := head } })).settle
  else .next (s.badRdrWrite r)

/-- NOT_HEAD (R323, R325). -/
def execNotHead (r : ReaderId) (head : BitVec 12) (s : State) : Out :=
  if !s.rdrWrites r then .next s
  else if (s.reader r).notRing.headOk head then
    .next (s.modReader r (fun x => { x with notRing := { x.notRing with head := head } })).settle
  else .next (s.badRdrWrite r)

/-- s of a ring lies in 4–12. -/
def Ring.sizeOk (g : Ring) : Bool := decide (4 ≤ g.size.toNat ∧ g.size.toNat ≤ 12)

/-- The RDR block after a CONTROL write that is accepted: a ring that becomes enabled starts at 0; what was announced
and not yet read is forgotten when REQ_EN clears (R321, R324). [log DEDUCED 69, 75] -/
def Reader.control (x : Reader) (bits : BitVec 4) : Reader :=
  let req := bitOf bits 0
  let ver := bitOf bits 1
  let no := bitOf bits 2
  let kept := match x.reading, x.announced with
    | some (.descriptor _ order), h :: _ => if h.2.2 = order then [h] else []
    | _, _ => []
  { x with
    reqEn := req, verEn := ver, notEn := no, dropEn := bitOf bits 3,
    reqRing := if req && !x.reqEn then x.reqRing.enabled else x.reqRing,
    verRing := if ver && !x.verEn then x.verRing.enabled else x.verRing,
    notRing := if no && !x.notEn then x.notRing.enabled else x.notRing,
    announced := if req && x.reqEn then x.announced else if req then [] else kept }

/-- RDR_CONTROL: enables and disables; one that enables a ring with s outside 4–12 is dropped and counted. -/
def execRdrControl (r : ReaderId) (bits : BitVec 4) (s : State) : Out :=
  if !s.rdrWrites r then .next s
  else
    let x := s.reader r
    let bad := (bitOf bits 0 && !x.reqEn && !x.reqRing.sizeOk) || (bitOf bits 1 && !x.verEn && !x.verRing.sizeOk) ||
      (bitOf bits 2 && !x.notEn && !x.notRing.sizeOk)
    if bad then .next (s.badRdrWrite r)
    else .next ((s.modReader r (fun x => x.control bits)).checkAway r).settle

/-- RDR_WINDOW: the base, whose low 12 bits are zero; one that would wrap past 2^64 − 1 is dropped and counted.
[log DEDUCED 74] -/
def execRdrWindow (r : ReaderId) (base : DWord) (s : State) : Out :=
  if !s.rdrWrites r then .next s
  else
    let b := base.toNat / 4096 * 4096
    if 2 ^ 64 < b + 2 ^ 32 then .next (s.badRdrWrite r)
    else .next (s.modReader r (fun x => { x with window := BitVec.ofNat 64 b }))

/-- RING_CONFIG: a ring's base, a multiple of 4 KiB, and s, while it is disabled (R321). [log DEDUCED 74] -/
def execRingConfig (r : ReaderId) (ring : RingKind) (base : Word) (size : BitVec 4) (s : State) : Out :=
  if !s.rdrWrites r then .next s
  else
    let x := s.reader r
    let on := match ring with
      | .req => x.reqEn
      | .ver => x.verEn
      | .not => x.notEn
    let set (g : Ring) : Ring := { g with base := BitVec.ofNat 32 (base.toNat / 4096 * 4096), size := size }
    if on then .next (s.badRdrWrite r)
    else
      .next (s.modReader r (fun x =>
        match ring with
        | .req => { x with reqRing := set x.reqRing }
        | .ver => { x with verRing := set x.verRing }
        | .not => { x with notRing := set x.notRing }))

/-! ### Times (R339, R341) -/

/-- MSIX_HOLDOFF: the message that a vector owes is sent, or pends in the PBA where the vector is masked. -/
def execMsixHoldoff (r : ReaderId) (v : Fin 4) (s : State) : Out :=
  let x := s.reader r
  let vec := x.vectors[v]
  if !s.pwr.powered || !vec.owed || !s.msixDue r v then .next s
  else if !x.msixEn then .next (s.modVector r v (fun y => { y with owed := false }))
  else if x.msixMask || vec.masked then .next (s.modVector r v (fun y => { y with owed := false, pba := true }))
  else .next (s.sendMsix r v)

/-- HOLD_EXPIRY: the reader's oldest held record has waited for the hold time (R341 item 2). -/
def execHoldExpiry (r : ReaderId) (s : State) : Out :=
  match (s.reader r).held with
  | [] => .next s
  | h :: _ =>
    if s.pwr.powered && decide (h.since + s.holdTicks ≤ s.ext) then .next (s.discardOldest r 2).settle else .next s

/-! ### Ports (R52, R343, R438, R439) -/

/-- The PORT notice: 1 down, 2 up, 3 PERST#, 4 hot reset. -/
def State.portNotice (s : State) (what : Nat) (p : PortId) : State :=
  s.ownerNotice 0x0A (leBytes 1 what ++ leBytes 1 p.val)

/-- PERST: PERST# has been low for 100 ns or more: a port reset; the link goes down with it.
[log DEDUCED 76; DESIGN CHOICE 155] -/
def execPerst (p : PortId) (s : State) : Out :=
  if !s.pwr.powered || (s.port p).perst then .next s
  else
    let t := (s.portDown p).modPort p (fun x => { x with perst := true, evPerst := true })
    .next ((t.portReset p).portNotice 3 p).settle

/-- HOT_RESET: a port reset. [log DEDUCED 76] -/
def execHotReset (p : PortId) (s : State) : Out :=
  if !s.pwr.powered || !(s.port p).linkUp then .next s
  else .next (((s.modPort p (fun x => { x with evHot := true })).portReset p).portNotice 4 p).settle

/-- LINK_DOWN (R52). -/
def execLinkDown (p : PortId) (s : State) : Out := if s.pwr.powered then .next (s.portDown p).settle else .next s

/-- LINK_UP: the link trains, so its reference is present, PERST# is deasserted and the cable present; its readers may be
present again (R52, R111).
[log DEDUCED 76; DESIGN CHOICE 155] -/
def execLinkUp (p : PortId) (speed : BitVec 2) (flit : Bool) (width : BitVec 5) (s : State) : Out :=
  let x := s.port p
  if !s.pwr.powered || x.linkUp || !s.portInService p || !bitOf s.clk.present p.val || speed == 0 || !(width == 4 || width == 8 || width == 16) then .next s
  else
    let t := s.modPort p (fun x =>
      { x with linkUp := true, speed := speed, flit := flit, width := width, perst := false, present := true,
               evUp := true })
    .next (t.portNotice 2 p).settle

/-! ### Function resets (R356, R357) -/

/-- Every VF of a port is reset and VF Enable clears. [log DEDUCED 77] -/
def State.clearVfs (s : State) (p : PortId) : State :=
  let t := (s.vfs p).foldl (fun t r => t.readerReset r false) s
  (t.modPort p (fun x => { x with vfEnable := false, numVfs := 0 })).checkPort p

/-- FLR of a function: a reader reset of it, and of each VF for a PF; its configuration space goes to reset values.
[log DEDUCED 77] -/
def execFlr (r : ReaderId) (s : State) : Out :=
  if !s.hostReaches r then .next s
  else
    let p := readerPort r
    let t := s.modPort p (fun x => { x with flrs := satInc x.flrs })
    let t := if readerIndex r = 0 then t.clearVfs p else t
    .next (((t.readerReset r false).modReader r (fun x => x.cfgReset)).checkAway r).settle

/-- VF_ENABLE_CLEAR: a write clears VF Enable. -/
def execVfEnableClear (p : PortId) (s : State) : Out :=
  if s.pwr.powered && (s.port p).linkUp && (s.port p).vfEnable then .next (s.clearVfs p).settle else .next s

/-- READER_RESET_QUIESCED: every pass of the reader has quiesced; steps 5 and 6 of R357. -/
def execReaderResetQuiesced (r : ReaderId) (s : State) : Out :=
  if (s.reader r).resetting && !s.hasPass r && s.pwr.powered then .next (s.resetDone r).settle else .next s

/-! ### Configuration space (R339, R340) -/

/-- Messages that pend in the PBA of vectors no longer masked are sent, as PCIe defines. -/
def State.unmask (s : State) (r : ReaderId) : State :=
  (List.finRange 4).foldl (fun t v =>
    let x := t.reader r
    if x.msixEn && !x.msixMask && !x.vectors[v].masked && x.vectors[v].pba then
      (t.modVector r v (fun y => { y with pba := false })).msix r v
    else t) s

/-- CONFIGURATION_SPACE_WRITE: Bus Master Enable, the power state, VF Enable and NumVFs, MSI-X Enable and the function
mask. -/
def execConfigurationSpaceWrite (r : ReaderId) (w : CfgWrite) (s : State) : Out :=
  if !s.hostReaches r then .next s
  else match w with
    | .busMaster on => .next ((s.modReader r (fun x => { x with busMaster := on })).checkAway r).settle
    | .d3hot on => .next ((s.modReader r (fun x => { x with d3hot := on })).checkAway r).settle
    | .msixEnable on => .next ((s.modReader r (fun x => { x with msixEn := on })).unmask r)
    | .msixMask on => .next ((s.modReader r (fun x => { x with msixMask := on })).unmask r)
    | .vfs enable num =>
      let p := readerPort r
      if readerIndex r ≠ 0 then .next s
      else if !enable then
        if (s.port p).vfEnable then .next (s.clearVfs p).settle
        else .next (s.modPort p (fun x => { x with numVfs := num }))
      else if (s.port p).vfEnable then .next s
      else .next (s.modPort p (fun x => { x with vfEnable := true, numVfs := num })).settle

end Sys2Proof.Machine
end

