-- ==== Sys2Proof/Machine/CodexParse.lean ====
section
/-! DEFINITION. Machine/CodexParse.lean: the codex container and its sections as bytes, and as entries (R253, R254,
R258, Tables 11.1 to 11.8 and 12.4). -/

namespace Sys2Proof.Machine

/-! ### The container (Tables 11.1 to 11.3) -/

/-- An entry of the section table. -/
structure SectionEntry where
  type   : Nat
  zero1  : Nat
  bay    : Nat
  offset : Nat
  size   : Nat
  zero2  : Nat
  hash   : List Byte
deriving DecidableEq, Repr

/-- LENGTH of a container. -/
def imgLength (img : List Byte) : Nat := fieldAt img 16 4
/-- SCOPE of a container. -/
def imgScope (img : List Byte) : Nat := fieldAt img 8 1
/-- BAY of a container. -/
def imgBay (img : List Byte) : Nat := fieldAt img 10 2
/-- SECTIONS of a container. -/
def imgCount (img : List Byte) : Nat := fieldAt img 12 2
/-- SEQ of a container. -/
def imgSeq (img : List Byte) : Nat := fieldAt img 20 4
/-- The section table. -/
def imgSections (img : List Byte) : List SectionEntry :=
  (List.range (imgCount img)).map (fun i =>
    let o := 64 + 48 * i
    { type := fieldAt img o 1, zero1 := fieldAt img (o + 1) 1, bay := fieldAt img (o + 2) 2,
      offset := fieldAt img (o + 4) 4, size := fieldAt img (o + 8) 4, zero2 := fieldAt img (o + 12) 4,
      hash := bytesAt img (o + 16) 32 })
/-- The signature block: the last 208 bytes of the container. -/
def imgBlock (img : List Byte) : List Byte := bytesAt img (imgLength img - 208) 208
/-- The codex hash (R255). -/
def imgHash (img : List Byte) : List Byte := sha256 (img.take (imgLength img - 208))
/-- The bytes of a section, if the container has it. -/
def imgSection (img : List Byte) (type : Nat) : Option (List Byte) :=
  ((imgSections img).find? (fun e => e.type == type)).map (fun e => bytesAt img e.offset e.size)
/-- The bytes of a section, none where the container lacks it. -/
def imgBytes (img : List Byte) (type : Nat) : List Byte := (imgSection img type).getD []
/-- The index in the section table of a section type. -/
def imgIndex (img : List Byte) (type : Nat) : Nat := ((imgSections img).findIdx? (fun e => e.type == type)).getD 0

/-- Sections rise in TYPE, lie in the order of their entries between the table and the signature block, and do not
overlap (R254). -/
def sectionsOrdered (lo hi : Nat) (last : Nat) : List SectionEntry → Option Nat
  | [] => none
  | e :: r =>
    if last < e.type ∧ 1 ≤ e.type ∧ e.type ≤ 13 ∧ e.zero1 = 0 ∧ e.zero2 = 0 ∧ e.offset % 8 = 0 ∧ e.size % 8 = 0 ∧
        lo ≤ e.offset ∧ e.offset + e.size ≤ hi then
      (sectionsOrdered (e.offset + e.size) hi e.type r).map (· + 1)
    else some 0

/-! ### Entries of fixed size -/

/-- The records of `n` bytes of a section. -/
def recordsOf (n : Nat) (bs : List Byte) : List (List Byte) :=
  (List.range (bs.length / n)).map (fun i => bytesAt bs (n * i) n)

/-- BAYS (Table 11.5). -/
def parseBay (b : List Byte) : BayEntry :=
  let f := fieldAt b 10 1
  { bay := BitVec.ofNat 12 (fieldAt b 0 2), x0 := fieldAt b 2 2, y0 := fieldAt b 4 2, w := fieldAt b 6 2,
    h := fieldAt b 8 2, piecewise := natBits f 0 1 == 1, spans := natBits f 1 1 == 1,
    reserve := BitVec.ofNat 2 (natBits f 2 2), maxTrim := BitVec.ofNat 3 (natBits f 4 3), payDx := fieldAt b 12 2,
    payDy := fieldAt b 14 2, egrDx := fieldAt b 16 2, egrDy := fieldAt b 18 2,
    catBay := BitVec.ofNat 32 (fieldAt b 20 4), depth := fieldAt b 24 1 }
/-- WINDOWS (Table 12.4). -/
def parseWindow (b : List Byte) : WindowEntry :=
  let f := fieldAt b 3 1
  { bay := BitVec.ofNat 12 (fieldAt b 0 2), space := fieldAt b 2 1, read := natBits f 0 1 == 1,
    write := natBits f 1 1 == 1, wslot := fieldAt b 4 1, x0 := fieldAt b 8 2, y0 := fieldAt b 10 2, w := fieldAt b 12 2,
    h := fieldAt b 14 2, base := fieldAt b 16 8, len := fieldAt b 24 8 }
/-- WAFERMAP (Table 11.6). -/
def parseWafer (b : List Byte) : WaferEntry :=
  { bay := BitVec.ofNat 12 (fieldAt b 0 2), wslot := fieldAt b 2 1, dw := BitVec.ofNat 11 (fieldAt b 4 2) }
/-- CROSSINGS (Table 11.6). -/
def parseCrossing (b : List Byte) : CrossingEntry :=
  { bay := BitVec.ofNat 12 (fieldAt b 0 2), dir := fieldAt b 2 1, link := fieldAt b 3 1, k := fieldAt b 4 1,
    set := fieldAt b 5 1 }
/-- READERS (Table 11.7). -/
def parseReader (b : List Byte) : ReaderEntry :=
  { reader := BitVec.ofNat 12 (fieldAt b 0 2), bay := BitVec.ofNat 12 (fieldAt b 2 2),
    classes := BitVec.ofNat 3 (fieldAt b 4 1) }
/-- QOS (Table 11.7). -/
def parseQos (b : List Byte) : QosEntry :=
  { reader := BitVec.ofNat 12 (fieldAt b 0 2), cls := BitVec.ofNat 2 (fieldAt b 2 1), weight := fieldAt b 3 1,
    maxOut := natBits (fieldAt b 4 2) 0 10 }
/-- LOANS (Table 11.7). -/
def parseLoan (b : List Byte) : LoanEntry :=
  { bay := BitVec.ofNat 12 (fieldAt b 0 2), cls := BitVec.ofNat 2 (fieldAt b 2 1),
    pass := BitVec.ofNat 32 (fieldAt b 4 4), request := BitVec.ofNat 32 (fieldAt b 8 4) }
/-- DUPLEX (Table 11.7). -/
def parseDuplex (b : List Byte) : DuplexEntry :=
  { first := BitVec.ofNat 12 (fieldAt b 0 2), second := BitVec.ofNat 12 (fieldAt b 2 2) }
/-- ALLOW (Table 11.8). -/
def parseAllow (b : List Byte) : AllowEntry :=
  { volume := bytesAt b 0 32, bay := BitVec.ofNat 12 (fieldAt b 32 2), vslot := BitVec.ofNat 8 (fieldAt b 34 1),
    impureOk := natBits (fieldAt b 35 1) 0 1 == 1 }
/-- PROGRAM (Table 11.8), with the timetable that TT names. -/
def parseProgram (tables : List (List DWord)) (b : List Byte) : ProgramEntry :=
  { bay := BitVec.ofNat 12 (fieldAt b 0 2), vslot := BitVec.ofNat 8 (fieldAt b 2 1), set := fieldAt b 3 1,
    dx := fieldAt b 4 2, dy := fieldAt b 6 2, w := fieldAt b 8 2, h := fieldAt b 10 2, tt := fieldAt b 12 4,
    table := (tables[fieldAt b 12 4]?).getD [], base := fieldAt b 16 2, primary := natBits (fieldAt b 20 4) 0 18 }
/-- ALTERNATE (Table 11.8). -/
def parseAlternate (b : List Byte) : AlternateEntry :=
  { bay := BitVec.ofNat 12 (fieldAt b 0 2), dir := fieldAt b 2 1, link := fieldAt b 3 1, set := fieldAt b 4 1 }

/-! ### Records of varying size -/

/-- TICKETS records (R258): header, COUNT entries, 4 bytes of padding where COUNT is odd. The second part is the index of
the first record that runs past the section, or whose padding is not zero; `n` bounds the records. -/
def parseTickets (bs : List Byte) : Nat → List (TicketRecord × List Byte) × Option Nat
  | 0 => ([], if bs.isEmpty then none else some 0)
  | n + 1 =>
    if bs.isEmpty then ([], none)
    else
      let count := natBits (fieldAt bs 2 1) 0 6
      let len := 8 + 4 * count + 4 * (count % 2)
      let raw := bs.take len
      let es := (List.range count).map (fun i =>
        (BitVec.ofNat 12 (fieldAt raw (8 + 4 * i) 2), BitVec.ofNat 9 (fieldAt raw (10 + 4 * i) 2)))
      let rec_ : TicketRecord := { ax := fieldAt raw 0 1, ay := fieldAt raw 1 1, entries := es }
      let rest := parseTickets (bs.drop len) n
      let bad := decide (bs.length < len) || !allZero (raw.drop (8 + 4 * count))
      ((rec_, raw) :: rest.1, if bad then some 0 else rest.2.map (· + 1))
/-- TIMETABLES records: COUNT, then COUNT entries. The Bool says that the last record, which is not taken, runs past the
section. -/
def parseTables (bs : List Byte) : Nat → List (List DWord × List Byte) × Bool
  | 0 => ([], !bs.isEmpty)
  | n + 1 =>
    if bs.isEmpty then ([], false)
    else
      let count := fieldAt bs 0 4
      let len := 8 + 8 * count
      if bs.length < len then ([], true)
      else
        let raw := bs.take len
        let es := (List.range count).map (fun i => BitVec.ofNat 64 (fieldAt raw (8 + 8 * i) 8))
        let rest := parseTables (bs.drop len) n
        ((es, raw) :: rest.1, rest.2)

/-- DUPLEX entries: a final all-zero entry is padding (R258). -/
def duplexRecords (bs : List Byte) : List (List Byte) :=
  let rs := recordsOf 4 bs
  match rs.getLast? with
  | none => rs
  | some r => if allZero r then rs.dropLast else rs

/-- The sections of a container as entries. -/
def parseCodex (img : List Byte) : Codex :=
  let tables := (parseTables (imgBytes img 11) ((imgBytes img 11).length / 8)).1.map (fun t => t.1)
  { bays := (recordsOf 32 (imgBytes img 1)).map parseBay, windows := (recordsOf 32 (imgBytes img 2)).map parseWindow,
    wafermap := (recordsOf 8 (imgBytes img 3)).map parseWafer,
    crossings := (recordsOf 8 (imgBytes img 4)).map parseCrossing,
    tickets := (parseTickets (imgBytes img 5) ((imgBytes img 5).length / 8)).1.map (fun t => t.1),
    readers := (recordsOf 8 (imgBytes img 6)).map parseReader, qos := (recordsOf 8 (imgBytes img 7)).map parseQos,
    loans := (recordsOf 16 (imgBytes img 8)).map parseLoan, duplex := (duplexRecords (imgBytes img 9)).map parseDuplex,
    allow := (recordsOf 40 (imgBytes img 10)).map parseAllow, tables := tables,
    programs := (recordsOf 24 (imgBytes img 12)).map (parseProgram tables),
    alternates := (recordsOf 8 (imgBytes img 13)).map parseAlternate }

end Sys2Proof.Machine
end

