-- ==== Sys2Proof/Machine/Ecdsa.lean ====
section
/-! DEFINITION. Machine/Ecdsa.lean: verification of an ECDSA P-384 signature over a 32-byte digest taken directly
as the hash value (R255, FIPS 186-5). -/

namespace Sys2Proof.P384

/-- The field prime 2^384 − 2^128 − 2^96 + 2^32 − 1. -/
def p : Nat := 2 ^ 384 - 2 ^ 128 - 2 ^ 96 + 2 ^ 32 - 1
/-- The order of the base point. -/
def n : Nat :=
  0xffffffffffffffffffffffffffffffffffffffffffffffffc7634d81f4372ddf581a0db248b0a77aecec196accc52973
/-- The curve coefficient b. -/
def b : Nat :=
  0xb3312fa7e23ee7e4988e056be3f82d19181d9c6efe8141120314088f5013875ac656398d8a2ed19d2a85c8edd3ec2aef
/-- The base point's x. -/
def gx : Nat :=
  0xaa87ca22be8b05378eb1c71ef320ad746e1d3b628ba79b9859f741e082542a385502f25dbf55296c3a545e3872760ab7
/-- The base point's y. -/
def gy : Nat :=
  0x3617de4a96262c6f5d9e98bf9292dc29f8f41dbd289a147ce9da3113b5f0b8c00a60b1ce1d7e819d7a431d7c90ea0e5f

/-- Base to the exponent whose low `k` bits are scanned from bit k − 1 down, modulo m. -/
def powModBits (m base e : Nat) : Nat → Nat → Nat
  | 0, acc => acc
  | k + 1, acc =>
    let sq := acc * acc % m
    powModBits m base e k (if e.testBit k then sq * base % m else sq)
/-- Modular inverse for a prime modulus (Fermat). -/
def inv (m a : Nat) : Nat := powModBits m (a % m) (m - 2) 384 1

/-- A point; none is the point at infinity. -/
abbrev Point := Option (Nat × Nat)

/-- Whether a point lies on the curve, with reduced coordinates. -/
def onCurve (x y : Nat) : Bool :=
  decide (x < p) && decide (y < p) && (y * y) % p == (x * x * x + (p - 3) * x + b) % p

/-- The sum of two points. -/
def addPt (a c : Point) : Point :=
  match a, c with
  | none, q => q
  | q, none => q
  | some (x1, y1), some (x2, y2) =>
    if x1 = x2 ∧ (y1 + y2) % p = 0 then none
    else
      let l := if x1 = x2 then (3 * x1 * x1 + (p - 3)) * inv p (2 * y1) % p
               else (y2 + p - y1) * inv p (x2 + p - x1) % p
      let x3 := (l * l + 2 * p - x1 - x2) % p
      let y3 := (l * (x1 + p - x3) + p - y1) % p
      some (x3, y3)

/-- The multiple of a point by the low `k` bits of `e`, most significant first. -/
def mulBits (e : Nat) (q : Point) : Nat → Point → Point
  | 0, acc => acc
  | k + 1, acc =>
    let d := addPt acc acc
    mulBits e q k (if e.testBit k then addPt d q else d)

/-- Whether (r, s) verifies for the digest under the public key (R255). [log DESIGN CHOICE 153] -/
def verify (digest : List Byte) (x y r s : Nat) : Bool :=
  onCurve x y && decide (0 < r ∧ r < n ∧ 0 < s ∧ s < n) &&
  (let e := beNat digest
   let w := inv n s
   let u1 := e * w % n
   let u2 := r * w % n
   match addPt (mulBits u1 (some (gx, gy)) 384 none) (mulBits u2 (some (x, y)) 384 none) with
   | none => false
   | some (x1, _) => x1 % n == r)

end Sys2Proof.P384

namespace Sys2Proof

/-- The key hash of a signature block: SHA-256 of its 97-byte KEY (R255, Table 11.3). -/
def sigKeyHash (block : List Byte) : List Byte := sha256 (bytesAt block 0 97)
/-- The zero fields of a signature block: bytes 97–103 and 200–207 (Table 11.3). -/
def sigZeros (block : List Byte) : Bool := allZero (bytesAt block 97 7) && allZero (bytesAt block 200 8)
/-- Whether a signature block signs a 32-byte digest (R255, Table 11.3). -/
def sigVerifies (block digest : List Byte) : Bool :=
  block.getD 0 0 == 0x04 &&
  P384.verify digest (beNat (bytesAt block 1 48)) (beNat (bytesAt block 49 48))
    (beNat (bytesAt block 104 48)) (beNat (bytesAt block 152 48))

end Sys2Proof
end

