-- ==== Sys2Proof/Machine/CodexCheck.lean ====
section
/-! DEFINITION. Machine/CodexCheck.lean: the loader's checks, in the order of their codes, and what each failure returns
(R262, R263, Tables 11.9 and 11.10). -/

namespace Sys2Proof.Machine

/-- A failed check: its code, the result, the index in the section table, the index of the entry or record. -/
structure CheckFail where
  check   : Nat
  result  : CmdResult
  section_ : Nat := 0
  item    : Nat := 0
deriving DecidableEq, Repr

/-- The first element of a list that a test refuses. -/
def firstBad {α : Type} (ok : α → Bool) (xs : List α) : Option Nat := xs.findIdx? (fun x => !ok x)
/-- The first failure in a list of section types and the entry that fails there. -/
def firstFail (img : List Byte) (check : Nat) (result : CmdResult) (tests : List (Nat × Option Nat)) :
    Option CheckFail :=
  tests.findSome? (fun t => t.2.map (fun i => { check := check, result := result, section_ := imgIndex img t.1, item := i }))
/-- The first element of a list that agrees with an earlier one. [log DEDUCED 107] -/
def firstRepeat {α : Type} (same : α → α → Bool) (xs : List α) : Option Nat :=
  (List.range xs.length).find? (fun i =>
    match xs[i]? with
    | none => false
    | some e => (xs.take i).any (same e))
/-- A failure of the container as a whole. -/
def failIf (bad : Bool) (check : Nat) (result : CmdResult) : Option CheckFail :=
  if bad then some { check := check, result := result } else none

/-! ### Checks 0x01 to 0x05 -/

/-- SCOPE that a load kind takes (R264). -/
def LoadKind.scope : LoadKind → Nat
  | .hostBay => 1
  | _ => 0

/-- Check 0x01: the container's shape. -/
def check01 (img : List Byte) (scope : Nat) : Option CheckFail :=
  let len := imgLength img
  let n := imgCount img
  let head := bytesAt img 0 4 == [0x50, 0x5A, 0x43, 0x58] && fieldAt img 4 2 == 1 && imgScope img == scope &&
    fieldAt img 9 1 == 0 && fieldAt img 14 2 == 0 && fieldAt img 28 4 == 0 &&
    (scope == 1 || (imgBay img == 0 && allZero (bytesAt img 32 32))) &&
    decide (1 ≤ n ∧ n ≤ 13) && decide (len % 8 = 0 ∧ len ≤ 2 ^ 28 ∧ len = img.length ∧ 64 + 48 * n + 208 ≤ len) &&
    sigZeros (imgBlock img)
  let want := if scope = 1 then imgBay img else 0xFFFF
  if !head then some { check := 1, result := .badImage }
  else
    match sectionsOrdered (64 + 48 * n) (len - 208) 0 (imgSections img), firstBad (fun e => e.bay == want) (imgSections img) with
    | some i, some j => some { check := 1, result := .badImage, section_ := min i j }
    | some i, none => some { check := 1, result := .badImage, section_ := i }
    | none, some j => some { check := 1, result := .badImage, section_ := j }
    | none, none => none

/-- The signer is accepted in the mode in force (R257). -/
def State.signerOk (s : State) (img : List Byte) (fromRom : Bool) : Bool :=
  let h := sigKeyHash (imgBlock img)
  match s.cur.mode with
  | .normal => !fromRom && s.nvs.keys.contains h
  | _ => fromRom && h == leBytes 32 Config.sampleKeyHash.toNat
/-- Check 0x02: the signer and the signature. -/
def State.check02 (s : State) (img : List Byte) (fromRom : Bool) : Option CheckFail :=
  failIf (!(s.signerOk img fromRom && sigVerifies (imgBlock img) (imgHash img))) 2 .refusedAuth
/-- Check 0x03: SEQ above the floor (R256). -/
def State.check03 (s : State) (img : List Byte) : Option CheckFail :=
  failIf (decide (imgSeq img ≤ s.cdx.floor.toNat)) 3 .refusedAuth
/-- Check 0x04: every section hash. -/
def check04 (img : List Byte) : Option CheckFail :=
  (firstBad (fun e => sha256 (bytesAt img e.offset e.size) == e.hash) (imgSections img)).map (fun i =>
    { check := 4, result := .badImage, section_ := i })
/-- Check 0x05: PROFILE 0x0001 (R20). -/
def check05 (img : List Byte) : Option CheckFail := failIf (fieldAt img 6 2 != 1) 5 .badImage

/-- Checks 0x01 to 0x05. -/
def State.checks15 (s : State) (img : List Byte) (scope : Nat) (fromRom : Bool) : Option CheckFail :=
  (check01 img scope).or ((s.check02 img fromRom).or ((s.check03 img).or ((check04 img).or (check05 img))))

/-! ### Check 0x06 -/

/-- Check 0x06: the bay load fits the codex in force. -/
def State.check06 (s : State) (img : List Byte) : Option CheckFail :=
  let b : BayId := BitVec.ofNat 12 (imgBay img)
  let bad := decide (4096 ≤ imgBay img) || match s.cdx.codex, s.bayEntry b with
    | some _, some e =>
      bytesAt img 32 32 != s.cdx.hash || (s.partner b).isSome ||
        ((recordsOf 32 (imgBytes img 1)).map parseBay).any (fun n =>
          n.bay == b && (n.x0 != e.x0 || n.y0 != e.y0 || n.w != e.w || n.h != e.h))
    | _, _ => true
  failIf bad 6 .refusedState

/-! ### Check 0x07 -/

/-- A BAYS entry's fields are in range (Table 11.5). -/
def bayFieldsOk (b : List Byte) : Bool :=
  let e := parseBay b
  decide (fieldAt b 0 2 < 4096) && decide (1 ≤ e.w ∧ 1 ≤ e.h ∧ e.x0 + e.w ≤ 544 ∧ e.y0 + e.h ≤ 544) &&
    natBits (fieldAt b 10 1) 7 1 == 0 && decide (e.maxTrim.toNat ≤ 4) && fieldAt b 11 1 == 0 &&
    allZero (bytesAt b 25 7) && decide (e.payDx < e.w ∧ e.payDy < e.h ∧ e.egrDx < e.w ∧ e.egrDy < e.h) &&
    !(e.payDx == e.egrDx && e.payDy == e.egrDy) &&
    (if e.spans then decide (1 ≤ e.depth) else e.catBay == 0 && e.depth == 0)
/-- Two rectangles share a carrel. -/
def overlap (a b : BayEntry) : Bool :=
  decide (a.x0 < b.x0 + b.w ∧ b.x0 < a.x0 + a.w ∧ a.y0 < b.y0 + b.h ∧ b.y0 < a.y0 + a.h)
/-- The first bay whose id or rectangle meets that of an earlier one. -/
def bayClash (bs : List BayEntry) : Option Nat := firstRepeat (fun e o => o.bay == e.bay || overlap o e) bs

/-- A WINDOWS entry's fields are in range (Table 12.4, R279). -/
def windowFieldsOk (b : List Byte) : Bool :=
  let e := parseWindow b
  decide (fieldAt b 0 2 < 4096) && natBits (fieldAt b 3 1) 2 6 == 0 && allZero (bytesAt b 5 3) && decide (1 ≤ e.len) &&
    (match e.space with
     | 0 => decide (e.wslot < 16 ∧ 1 ≤ e.w ∧ 1 ≤ e.h ∧ e.x0 + e.w ≤ 544 ∧ e.y0 + e.h ≤ 544 ∧ e.base + e.len ≤ 0xC000)
     | 1 => e.wslot == 0 && decide (1 ≤ e.w ∧ 1 ≤ e.h ∧ e.x0 + e.w ≤ 544 ∧ e.y0 + e.h ≤ 544 ∧ 0x400000 ≤ e.base ∧
         e.base + e.len ≤ 0x480000)
     | 2 => e.wslot == 0 && e.y0 == 0 && e.h == 0 &&
         decide (1 ≤ e.w ∧ e.x0 + e.w ≤ 256 ∧ 0x200000000 ≤ e.base ∧ e.base + e.len ≤ 0x400000000)
     | _ => false)
/-- A WAFERMAP entry's fields are in range. -/
def waferFieldsOk (b : List Byte) : Bool :=
  decide (fieldAt b 0 2 < 4096 ∧ 1 ≤ fieldAt b 2 1 ∧ fieldAt b 2 1 ≤ 15 ∧ fieldAt b 4 2 < 2048) && fieldAt b 3 1 == 0 &&
    fieldAt b 6 2 == 0
/-- A CROSSINGS entry's fields are in range. -/
def crossingFieldsOk (b : List Byte) : Bool :=
  decide (fieldAt b 0 2 < 4096 ∧ fieldAt b 2 1 < 6 ∧ fieldAt b 3 1 < 8 ∧ 1 ≤ fieldAt b 4 1 ∧ fieldAt b 5 1 ≤ 15) &&
    fieldAt b 6 2 == 0
/-- A TICKETS record's fields are in range. -/
def ticketFieldsOk (t : TicketRecord × List Byte) : Bool :=
  let n := t.1.entries.length
  decide (t.1.ax < 136 ∧ t.1.ay < 136 ∧ 1 ≤ n ∧ n ≤ 32) && natBits (fieldAt t.2 0 8) 22 42 == 0 &&
    (List.range n).all (fun i => natBits (fieldAt t.2 (8 + 4 * i) 4) 12 4 == 0 && natBits (fieldAt t.2 (8 + 4 * i) 4) 25 7 == 0)
/-- A READERS entry's fields are in range. -/
def readerFieldsOk (b : List Byte) : Bool :=
  let v := fieldAt b 0 8
  natBits v 12 4 == 0 && decide (natBits v 16 16 < 4096) && natBits v 35 29 == 0
/-- A QOS entry's fields are in range. -/
def qosFieldsOk (b : List Byte) : Bool :=
  let v := fieldAt b 0 8
  natBits v 12 4 == 0 && decide (natBits v 16 2 ≤ 2) && natBits v 18 6 == 0 && decide (1 ≤ natBits v 24 8 ∧
    1 ≤ natBits v 32 10) && natBits v 42 22 == 0
/-- A LOANS entry's fields are in range. -/
def loanFieldsOk (b : List Byte) : Bool :=
  decide (fieldAt b 0 2 < 4096 ∧ fieldAt b 2 1 ≤ 2) && fieldAt b 3 1 == 0 && fieldAt b 12 4 == 0
/-- A DUPLEX entry's fields are in range. -/
def duplexFieldsOk (b : List Byte) : Bool := decide (fieldAt b 0 2 < 4096 ∧ fieldAt b 2 2 < 4096)
/-- An ALLOW entry's fields are in range. -/
def allowFieldsOk (b : List Byte) : Bool :=
  decide (fieldAt b 32 2 < 4096) && natBits (fieldAt b 35 1) 1 7 == 0 && fieldAt b 36 4 == 0
/-- A TIMETABLES record's fields are in range. -/
def tableFieldsOk (t : List DWord × List Byte) : Bool :=
  decide (1 ≤ t.1.length ∧ t.1.length ≤ 1024) && fieldAt t.2 4 4 == 0
/-- A PROGRAM entry's fields are in range. -/
def programFieldsOk (tables : Nat) (b : List Byte) : Bool :=
  decide (fieldAt b 0 2 < 4096 ∧ fieldAt b 3 1 ≤ 15 ∧ 1 ≤ fieldAt b 8 2 ∧ 1 ≤ fieldAt b 10 2 ∧ fieldAt b 12 4 < tables ∧
      fieldAt b 16 2 % 8 = 0 ∧ fieldAt b 16 2 < 0xC000) && fieldAt b 18 2 == 0 && natBits (fieldAt b 20 4) 18 14 == 0 &&
    (List.range 6).all (fun k => natBits (fieldAt b 20 4) (3 * k) 3 != 7)
/-- An ALTERNATE entry's fields are in range. -/
def alternateFieldsOk (b : List Byte) : Bool :=
  decide (fieldAt b 0 2 < 4096 ∧ fieldAt b 2 1 < 6 ∧ fieldAt b 3 1 < 8 ∧ 1 ≤ fieldAt b 4 1 ∧ fieldAt b 4 1 ≤ 15) &&
    allZero (bytesAt b 5 3)

/-- A PROGRAM run lies inside its bay, and no other run of its bay, VSLOT and set shares a carrel with it.
[log DEDUCED 107] -/
def programPlaceOk (x : Codex) (p : ProgramEntry) : Bool :=
  match x.bays.find? (fun e => e.bay == p.bay) with
  | none => false
  | some e =>
    decide (p.dx + p.w ≤ e.w ∧ p.dy + p.h ≤ e.h) &&
      decide ((x.programs.filter (fun q =>
        q.bay == p.bay && q.vslot == p.vslot && q.set == p.set &&
          decide (p.dx < q.dx + q.w ∧ q.dx < p.dx + p.w ∧ p.dy < q.dy + q.h ∧ q.dy < p.dy + p.h))).length = 1) &&
      ((x.programs.filter (fun q => q.bay == p.bay && q.vslot == p.vslot && q.set == p.set)).map
        (fun q => q.w * q.h)).sum == e.w * e.h
/-- The sets of a bay: the primary set, and those its PROGRAM and ALTERNATE entries name. [log DEDUCED 107] -/
def Codex.setsOf (x : Codex) (b : BayId) : List Nat :=
  0 :: ((x.programs.filter (fun p => p.bay == b)).map (fun p => p.set) ++
    (x.alternates.filter (fun q => q.bay == b)).map (fun q => q.set))
/-- Every set of the bay has runs for the VSLOT of an ALLOW entry (R260). [log DEDUCED 107] -/
def allowPlaceOk (x : Codex) (a : AllowEntry) : Bool :=
  (x.setsOf a.bay).all (fun k => x.programs.any (fun p => p.bay == a.bay && p.vslot == a.vslot && p.set == k))
/-- An alcove contains a carrel of a bay (R267). -/
def BayEntry.inAlcove (e : BayEntry) (ax ay : Nat) : Bool :=
  decide (e.x0 < 4 * ax + 4 ∧ 4 * ax < e.x0 + e.w ∧ e.y0 < 4 * ay + 4 ∧ 4 * ay < e.y0 + e.h)

/-- A section's size is a whole number of entries of `n` bytes. -/
def wholeEntries (img : List Byte) (type n : Nat) : Option Nat :=
  if (imgBytes img type).length % n = 0 then none else some ((imgBytes img type).length / n)

/-- Check 0x07: sections present, fields in range, places. `scope1` holds the bay of a bay load. [log DEDUCED 107] -/
def check07 (img : List Byte) (scope1 : Option BayId) : Option CheckFail :=
  let x := parseCodex img
  let raw (t n : Nat) : List (List Byte) := recordsOf n (imgBytes img t)
  let tick := parseTickets (imgBytes img 5) ((imgBytes img 5).length / 8)
  let tabs := parseTables (imgBytes img 11) ((imgBytes img 11).length / 8)
  let has (t : Nat) : Bool := (imgSection img t).isSome
  let missing := match scope1 with
    | none => [1, 2, 5, 6, 8, 10, 11, 12].any (fun t => !has t) || (x.bays.any (fun e => e.spans) && !has 4)
    | some _ => has 7 || has 9
  let mine (b : BayId) : Bool := scope1.isNone || scope1 == some b
  let inBay (t : TicketRecord) : Bool :=
    scope1.isNone || x.bays.any (fun e => mine e.bay && e.inAlcove t.ax t.ay)
  (failIf missing 7 .badImage).or (firstFail img 7 .badImage
    [(1, wholeEntries img 1 32), (1, firstBad bayFieldsOk (raw 1 32)), (1, bayClash x.bays),
     (1, if scope1.isSome && x.bays.length != 1 then some 0 else none), (1, firstBad (fun e => mine e.bay) x.bays),
     (2, wholeEntries img 2 32), (2, firstBad windowFieldsOk (raw 2 32)), (2, firstBad (fun e => mine e.bay) x.windows),
     (3, firstBad waferFieldsOk (raw 3 8)), (3, firstBad (fun e => mine e.bay) x.wafermap),
     (4, firstBad crossingFieldsOk (raw 4 8)), (4, firstBad (fun e => mine e.bay) x.crossings),
     (5, tick.2), (5, firstBad ticketFieldsOk tick.1),
     (5, firstRepeat (fun t o => o.ax == t.ax && o.ay == t.ay) x.tickets), (5, firstBad inBay x.tickets), (6, firstBad readerFieldsOk (raw 6 8)),
     (6, firstBad (fun e => mine e.bay) x.readers), (7, firstBad qosFieldsOk (raw 7 8)), (8, wholeEntries img 8 16),
     (8, firstBad loanFieldsOk (raw 8 16)), (8, firstBad (fun e => mine e.bay) x.loans),
     (9, firstBad duplexFieldsOk (duplexRecords (imgBytes img 9))), (10, wholeEntries img 10 40),
     (10, firstBad allowFieldsOk (raw 10 40)), (10, firstBad (fun e => mine e.bay) x.allow),
     (10, firstRepeat (fun a o => o.bay == a.bay && o.vslot == a.vslot) x.allow), (10, firstBad (allowPlaceOk x) x.allow), (11, if tabs.2 then some tabs.1.length else none),
     (11, firstBad tableFieldsOk tabs.1), (12, wholeEntries img 12 24),
     (12, firstBad (programFieldsOk tabs.1.length) (raw 12 24)), (12, firstBad (fun e => mine e.bay) x.programs),
     (12, firstBad (programPlaceOk x) x.programs), (13, firstBad alternateFieldsOk (raw 13 8)),
     (13, firstBad (fun e => mine e.bay) x.alternates)])

/-! ### Check 0x08 -/

/-- Folios a rectangle of carrels touches. -/
def rectFolios (x0 y0 w h : Nat) : List FolioId :=
  allFolios.filter (fun f =>
    decide (x0 < folioX f * 68 + 68 ∧ folioX f * 68 < x0 + w ∧ y0 < folioY f * 68 + 68 ∧ folioY f * 68 < y0 + h))
/-- A bay may lie where it does. -/
def State.bayPlaceOk (s : State) (e : BayEntry) : Bool :=
  e.folios.all (fun f => s.present f && !bitOf s.clk.dark f.val)
/-- A window reaches what R232 allows, by routes that R47 allows. The folios of this wafer are judged also where an entry
of the bay's wafer map names it. -/
def State.windowPlaceOk (s : State) (x : Codex) (w : WindowEntry) : Bool :=
  let from_ : List FolioId := match x.bays.find? (fun e => e.bay == w.bay) with
    | none => []
    | some e => e.folios
  let dest : List FolioId := match w.space with
    | 2 => (List.range w.w).map (fun i => faceFolio ((w.x0 + i) / 8))
    | _ =>
      let here : Bool := w.wslot == 0 ||
        x.wafermap.any (fun e => e.bay == w.bay && e.wslot == w.wslot && e.dw == s.ownWafer)
      if here then rectFolios w.x0 w.y0 w.w w.h else []
  (match w.space with
   | 2 => (List.range w.w).all (fun i => s.channelPopulated (w.x0 + i)) && dest.all (fun f => !s.isBlocked f)
   | _ => dest.all s.present) && from_.all (fun f => dest.all (fun g => s.routeOpen f g))
/-- A bound reader's port reaches its bay both ways. -/
def State.readerRouteOk (s : State) (x : Codex) (r : ReaderEntry) : Bool :=
  let p := readerPort r.reader
  if !s.portInService p then true
  else match x.bays.find? (fun e => e.bay == r.bay) with
    | none => true
    | some e => e.folios.all (fun f => s.routeOpen (portFolio p) f)
/-- Check 0x08: the edition. -/
def State.check08 (s : State) (img : List Byte) (x : Codex) : Option CheckFail :=
  let tag := fieldAt img 24 4
  (failIf (tag != 0 && tag != s.inv.tag.toNat) 8 .noResource).or (firstFail img 8 .noResource
    [(1, firstBad s.bayPlaceOk x.bays), (2, firstBad (s.windowPlaceOk x) x.windows),
     (6, firstBad (s.readerRouteOk x) x.readers)])

/-! ### Checks 0x09 to 0x0B: timetables -/

/-- A source code is one Table 8.1 allows for an output. -/
def outCodeOk (port code : Nat) : Bool := decide (code ≤ 5) && code != port + 1
/-- Bits of an entry outside a mask are zero. -/
def onlyBits (v mask : Nat) : Bool := v &&& mask == v
/-- An entry obeys Table 8.3, apart from the banks. -/
def entryOk (v : Nat) : Bool :=
  let outs := [0, 1, 2, 3].all (fun o => outCodeOk o (natBits v (3 + 3 * o) 3))
  match natBits v 0 3 with
  | 0 =>
    let run := natBits v 46 8
    outs && decide (natBits v 15 3 ≤ 4) && onlyBits v (2 ^ 54 - 1 - 2 ^ 45) &&
      decide (natBits v 18 12 + natBits v 42 1 * run ≤ 3071 ∧ natBits v 30 12 + natBits v 43 1 * run ≤ 3071)
  | 1 => decide (1 ≤ natBits v 3 32) && onlyBits v (2 ^ 35 - 1)
  | 2 => decide (1 ≤ natBits v 3 10 ∧ 2 ≤ natBits v 13 32) && onlyBits v (2 ^ 45 - 1)
  | 3 => v == 3
  | 4 => outs && onlyBits v (2 ^ 15 - 1)
  | _ => false
/-- Slots an entry touches: those it sends from, and those it receives into. -/
def entrySlots (v : Nat) : List Nat × List Nat :=
  if natBits v 0 3 ≠ 0 then ([], [])
  else
    let run := natBits v 46 8
    let line (first inc : Nat) : List Nat := (List.range (run + 1)).map (fun i => first + inc * i)
    (if [0, 1, 2, 3].any (fun o => natBits v (3 + 3 * o) 3 == 5) then line (natBits v 18 12) (natBits v 42 1) else [],
     if natBits v 15 3 ≠ 0 then line (natBits v 30 12) (natBits v 43 1) else [])
/-- A LOOP's body lies in the table and holds neither LOOP nor END (R200). [log DEDUCED 108] -/
def loopsOk (t : List DWord) : Bool :=
  (List.range t.length).all (fun i =>
    let v := ((t[i]?).getD 0).toNat
    natBits v 0 3 != 2 || (decide (i + natBits v 3 10 < t.length) &&
      ((t.drop (i + 1)).take (natBits v 3 10)).all (fun d => natBits d.toNat 0 3 != 2 && natBits d.toNat 0 3 != 3)))
/-- The bank of a slot of 16 bytes, and of an address (8 KiB banks). -/
def slotBank (slot : Nat) : Nat := slot / 512
/-- A run obeys R198 and R199. -/
def programTableOk (p : ProgramEntry) : Bool :=
  let last := p.base + 8 * p.table.length - 1
  let bank := p.base / 8192
  let prim (k : Nat) : Bool := natBits p.primary (3 * k) 3 == 1
  decide (p.table.length ≤ 1024) && decide (last / 8192 = bank ∧ last < 0xC000) && prim bank && loopsOk p.table &&
    p.table.all (fun d =>
      let (tx, rx) := entrySlots d.toNat
      entryOk d.toNat && (tx ++ rx).all (fun q => slotBank q != bank && prim (slotBank q)) &&
        (tx.zip rx).all (fun q => slotBank q.1 != slotBank q.2))

/-- Working cycles of one entry that is no LOOP; END lasts for ever, told by none. -/
def entryCycles (v : Nat) : Option Nat :=
  match natBits v 0 3 with
  | 0 => some (natBits v 46 8 + 1)
  | 1 => some (natBits v 3 32)
  | 4 => some 1
  | _ => none
/-- The entry in force in working cycle w of a list of entries without LOOP. -/
def flatAt : List DWord → Nat → Option Nat
  | [], _ => none
  | d :: r, w =>
    match entryCycles d.toNat with
    | none => none
    | some n => if w < n then some d.toNat else flatAt r (w - n)
/-- The working cycles of a list of entries without LOOP. -/
def flatCycles (ds : List DWord) : Nat := (ds.map (fun d => (entryCycles d.toNat).getD 0)).sum
/-- The entry in force in working cycle w of a timetable (R200); `n` bounds the entries. -/
def tableAt (t : List DWord) (w : Nat) : Nat → Option Nat
  | 0 => none
  | n + 1 =>
    match t with
    | [] => none
    | d :: r =>
      let v := d.toNat
      if natBits v 0 3 = 2 then
        let body := r.take (natBits v 3 10)
        let once := flatCycles body
        if w < once * natBits v 13 32 then flatAt body (w % once)
        else tableAt (r.drop (natBits v 3 10)) (w - once * natBits v 13 32) n
      else match entryCycles v with
        | none => none
        | some k => if w < k then some v else tableAt r (w - k) n
/-- The working cycles of a timetable up to its END. -/
def tableCycles (t : List DWord) : Nat → Nat
  | 0 => 0
  | n + 1 =>
    match t with
    | [] => 0
    | d :: r =>
      let v := d.toNat
      if natBits v 0 3 = 2 then
        flatCycles (r.take (natBits v 3 10)) * natBits v 13 32 + tableCycles (r.drop (natBits v 3 10)) n
      else match entryCycles v with
        | none => 0
        | some k => k + tableCycles r n
/-- The source of an output in an entry; none in an IDLE entry or after END. -/
def sourceOf (v : Option Nat) (o : Nat) : Nat :=
  match v with
  | none => 0
  | some e =>
    match natBits e 0 3 with
    | 0 => natBits e (3 + 3 * o) 3
    | 4 => natBits e (3 + 3 * o) 3
    | _ => 0
/-- A carrel takes the flit of an input in the entry in force. -/
def takes (v : Option Nat) (code : Nat) : Bool :=
  [0, 1, 2, 3].any (fun o => sourceOf v o == code) ||
    (match v with
     | none => false
     | some e => natBits e 0 3 == 0 && natBits e 15 3 == code)
/-- A crossing of a set connects an outward port of an edge carrel. -/
def crossingPort (x : Codex) (b : BayId) (set : Nat) (c : CarrelId) (o : Nat) : Bool :=
  x.crossings.any (fun e => e.bay == b && e.set == set &&
    [0, 1, 2, 3].any (fun ch => channelCarrel (linkOf e.dir e.link) ch == (c, o)))
/-- The timetable of a carrel in a VSLOT and set of a codex. -/
def Codex.tableOf (x : Codex) (e : BayEntry) (vslot : Byte) (set : Nat) (c : CarrelId) : List DWord :=
  match x.programs.find? (fun p => p.bay == e.bay && p.vslot == vslot && p.set == set &&
      inRect c.x.val c.y.val (e.x0 + p.dx) (e.y0 + p.dy) p.w p.h) with
  | none => []
  | some p => p.table
/-- The flit a carrel sends on an output in cycle w is valid: it comes from local, or it forwards a valid flit of a
neighbour, or it comes in over a crossing; `n` bounds the hops. [log DEDUCED 108] -/
def validAt (x : Codex) (e : BayEntry) (vslot : Byte) (set : Nat) : Nat → CarrelId → Nat → Nat → Bool
  | 0, _, _, _ => false
  | n + 1, c, o, w =>
    let t := x.tableOf e vslot set c
    match sourceOf (tableAt t w (t.length + 1)) o with
    | 0 => false
    | 5 => true
    | k + 1 =>
      match e.neighbour c k with
      | none => crossingPort x e.bay set c k
      | some d => decide (hopCost d c ≤ w) && validAt x e vslot set n d ((k + 2) % 4) (w - hopCost d c)
/-- Every valid flit a carrel sends in cycle w is taken where it arrives (R201). [log DEDUCED 108] -/
def takenAt (x : Codex) (e : BayEntry) (vslot : Byte) (set : Nat) (c : CarrelId) (w : Nat) : Bool :=
  [0, 1, 2, 3].all (fun o =>
    if validAt x e vslot set (w + 1) c o w then
      match e.neighbour c o with
      | none => crossingPort x e.bay set c o
      | some d =>
        let u := x.tableOf e vslot set d
        takes (tableAt u (w + hopCost c d) (u.length + 1)) ((o + 2) % 4 + 1)
    else true)
/-- An entry is an EG run: a ROUTE entry with EG = 1 that sends from local (R208). [log DEDUCED 108] -/
def egRun (v : Nat) : Bool :=
  natBits v 0 3 == 0 && natBits v 44 1 == 1 && [0, 1, 2, 3].any (fun o => natBits v (3 + 3 * o) 3 == 5)
/-- Every EG run of a timetable has a CRC entry after it, before END (R208). [log DEDUCED 108] -/
def egLeads : List DWord → Bool
  | [] => true
  | d :: r =>
    let v := d.toNat
    if natBits v 0 3 = 3 then true
    else (!egRun v || (r.takeWhile (fun q => natBits q.toNat 0 3 != 3)).any (fun q => natBits q.toNat 0 3 == 4)) && egLeads r
/-- Check 0x0A of one PROGRAM run. [log DEDUCED 108] -/
def programFlowOk (x : Codex) (p : ProgramEntry) : Bool :=
  match x.bays.find? (fun e => e.bay == p.bay) with
  | none => true
  | some e =>
    let cs := rectCarrels (e.x0 + p.dx) (e.y0 + p.dy) p.w p.h
    (cs.all (fun c => c != e.payload) || egLeads p.table) &&
      (List.range (tableCycles p.table (p.table.length + 1))).all (fun w =>
        cs.all (fun c => takenAt x e p.vslot p.set c w))

/-- Check 0x0B of a bay. -/
def bayLaneOk (e : BayEntry) : Bool :=
  e.folios.all (fun f => e.folios.all (fun g => decide (laneDelay f g ≤ 56))) &&
    (e.egrDx == 0 || e.egrDy == 0 || e.egrDx + 1 == e.w || e.egrDy + 1 == e.h)

/-! ### Checks 0x0C to 0x10 -/

/-- Check 0x0C of a crossing: its link and K; the link belongs to one bay; one crossing toward each neighbour. -/
def State.crossingPlaceOk (s : State) (x : Codex) (e : CrossingEntry) : Bool :=
  let next (q : CrossingEntry) : BitVec 11 := neighbourWafer s.lnk.shape s.lnk.coord q.dir
  s.crossingOk x e s.clk.freq &&
    x.crossings.all (fun q => q.dir != e.dir || q.link != e.link || q.bay == e.bay) &&
    decide ((x.crossings.filter (fun q => q.bay == e.bay && q.set == e.set && next q == next e)).length = 1)
/-- Check 0x0D of a bay: RESERVE equals the allowance of MAX_TRIM. -/
def bayReserveOk (e : BayEntry) : Bool := e.reserve == allowance e.maxTrim
/-- A READERS entry grants a class in a bay. -/
def Codex.granted (x : Codex) (b : BayId) (c : Nat) : Bool := x.readers.any (fun r => r.bay == b && bitOf r.classes c)
/-- Check 0x0E of a loan: its floor, for a spanning bay the wave bound (R263, R380), and no earlier entry for a bay and
class that a READERS entry grants (R351). -/
def loanOk (x : Codex) (q : LoanEntry × Nat) : Bool :=
  let l := q.1
  decide (l.pass.toNat ≤ l.request.toNat) &&
    !(x.granted l.bay l.cls.toNat && (x.loans.take q.2).any (fun o => o.bay == l.bay && o.cls == l.cls)) &&
    (match x.bays.find? (fun e => e.bay == l.bay) with
     | none => true
     | some e =>
       if e.spans then decide (2000 ≤ l.pass.toNat ∧ 700 + 60 * e.depth < l.pass.toNat) else decide (400 ≤ l.pass.toNat))
/-- R351: a LOANS entry stands for every bay and class that a READERS entry grants. -/
def readerLoanOk (x : Codex) (r : ReaderEntry) : Bool :=
  (List.range 3).all (fun c => !bitOf r.classes c || x.loans.any (fun l => l.bay == r.bay && l.cls.toNat == c))
/-- Check 0x0F of a TICKETS record: the router forwards, and READERS names every reader. [log DEDUCED 109] -/
def State.ticketPlaceOk (s : State) (x : Codex) (t : TicketRecord) : Bool :=
  !s.isBlocked (alcoveAt t.ax t.ay).folio && t.entries.all (fun e => x.readers.any (fun r => r.reader == e.1))
/-- The volumes a bay allows, by VSLOT. -/
def Codex.volumesOf (x : Codex) (b : BayId) (slot : Byte) : List (List Byte) :=
  (x.allow.filter (fun a => a.bay == b && a.vslot == slot)).map (fun a => a.volume)
/-- Check 0x10 of a pair: it is sound, and no earlier pair holds a bay of it. -/
def duplexOk (x : Codex) (p : DuplexEntry × Nat) : Bool :=
  let d := p.1
  let used (b : BayId) : Bool := (x.duplex.take p.2).any (fun q => q.first == b || q.second == b)
  match x.bays.find? (fun e => e.bay == d.first), x.bays.find? (fun e => e.bay == d.second) with
  | some a, some b =>
    d.first != d.second && !used d.first && !used d.second && a.w == b.w && a.h == b.h &&
      x.allow.all (fun q => !(q.bay == d.first || q.bay == d.second) ||
        (!q.impureOk && x.volumesOf d.first q.vslot == x.volumesOf d.second q.vslot)) &&
      a.folios.all (fun f => !b.folios.contains f) && x.readers.all (fun r => r.bay != d.second)
  | _, _ => false

/-- Checks 0x08 to 0x10 of a codex as it would stand. [log DEDUCED 109] -/
def State.checks8 (s : State) (img : List Byte) (x : Codex) : Option CheckFail :=
  (s.check08 img x).or
    ((firstFail img 9 .badImage [(12, firstBad programTableOk x.programs)]).or
      ((firstFail img 10 .badImage [(12, firstBad (programFlowOk x) x.programs)]).or
        ((firstFail img 11 .badImage [(1, firstBad bayLaneOk x.bays)]).or
          ((firstFail img 12 .noResource [(4, firstBad (s.crossingPlaceOk x) x.crossings)]).or
            ((firstFail img 13 .badImage [(1, firstBad bayReserveOk x.bays)]).or
              ((firstFail img 14 .badImage [(6, firstBad (readerLoanOk x) x.readers), (8, firstBad (loanOk x) x.loans.zipIdx)]).or
                ((firstFail img 15 .badImage [(5, firstBad (s.ticketPlaceOk x) x.tickets)]).or
                  (firstFail img 16 .badImage [(9, firstBad (duplexOk x) x.duplex.zipIdx)]))))))))

end Sys2Proof.Machine
end

