-- ==== Sys2Proof/Machine/Codex.lean ====
section
/-! DEFINITION. Machine/Codex.lean: codex loads, their commit, and UNLOAD (R252, R259, R264 to R269). -/

namespace Sys2Proof.Machine

/-! ### Sources of an image (R264, R405) -/

/-- The container of the flash codex store, where its trailer is valid (R405). -/
def State.storedCodex (s : State) : Option (List Byte) :=
  let tr := s.flashRead 0x60000 16
  let len := fieldAt tr 0 4
  if !committed tr 12 || fieldAt tr 4 4 != 0 || decide (2 ^ 25 < len) then none
  else
    let body := s.flashRead 0x1000000 len
    if fieldAt tr 8 4 = (crc32c (body ++ tr.take 8)).toNat then some body else none

/-- A load reads from the host window. -/
def LoadKind.fromHost : LoadKind → Bool
  | .hostWhole | .hostBay => true
  | _ => false
/-- A load reads a ROM sample. -/
def LoadKind.fromRom : LoadKind → Bool
  | .sample _ => true
  | _ => false
/-- The image of a load, as far as it has been read; none where the codex store holds no valid container. -/
def State.loadImage (s : State) (l : CodexLoad) : Option (List Byte) :=
  match l.kind with
  | .hostWhole | .hostBay => some l.buf
  | .sample i => some (Config.romSample i)
  | .flash | .auto => s.storedCodex

/-! ### Starting (R264, R266) -/

/-- A new codex command is answered BUSY (R264). -/
def State.codexBusy (s : State) : Bool :=
  s.frozen || s.cdx.load.isSome || s.cur.taking || (match s.act with
    | .freqChange _ => true
    | _ => false)
/-- A bay has a pass running or shelved. [log DEDUCED 64] -/
def Bay.occupied (x : Bay) : Bool := !x.free
/-- Some bay has a pass running or shelved. -/
def State.anyPass (s : State) : Bool := s.bayIds.any (fun b => (s.bay b).occupied)

/-- A load command: dropped before READY, BUSY, refused for a running pass, or accepted. [log DEDUCED 110, 120] -/
def State.startLoad (s : State) (kind : LoadKind) : Out :=
  if s.commandsDropped then .next s
  else if s.codexBusy then .next (s.cdxPost .busy 0 0 0)
  else
    let t : State := { s with cdx := { s.cdx with load := some { kind := kind } } }
    if kind != .hostBay && s.anyPass then .next (t.cdxEnd .refusedState 0 0 0).settle
    else .next t

/-- LOAD host whole (OP 0x1). -/
def execLoadHostWhole (s : State) : Out := s.startLoad .hostWhole
/-- LOAD host bay (OP 0x2). -/
def execLoadHostBay (s : State) : Out := s.startLoad .hostBay
/-- LOAD flash (OP 0x3). -/
def execLoadFlash (s : State) : Out := s.startLoad .flash
/-- LOAD ROM sample (OP 0x4). -/
def execLoadRomSample (index : BitVec 4) (s : State) : Out := s.startLoad (.sample index)

/-! ### The end of a load -/

/-- A load ends without a commit: its result is posted, and start-up goes on to READY (R264, R265). -/
def State.loadRefused (s : State) (r : CmdResult) (check section_ item : Nat) : State :=
  let t := s.cdxEnd r check section_ item
  if t.cur.stage == .codex then t.toReady else t.settle

/-- CODEX_HEADER_READ: length and SCOPE agree with the command; a bay load meets its bay's state and holds admission
there (R265, R267). -/
def execCodexHeaderRead (s : State) : Out :=
  match s.cdx.load with
  | none => .next s
  | some l =>
    if l.headerRead || s.frozen || s.cur.lost then .next s
    else match s.loadImage l with
      | none => .next (s.loadRefused .badImage 1 0 0)
      | some img =>
        if l.kind.fromHost && decide (img.length < 64) then .next s
        else
          let b : BayId := BitVec.ofNat 12 (imgBay img)
          let l := { l with headerRead := true, seq := BitVec.ofNat 32 (imgSeq img), bay := b }
          let t : State := { s with cdx := { s.cdx with load := some l } }
          let len := s.cdx.srcLen.toNat
          if l.kind.fromHost && (len != imgLength img || decide (2 ^ 28 < len)) then .next (t.loadRefused .badImage 1 0 0)
          else if imgScope img != l.kind.scope then .next (t.loadRefused .badImage 1 0 0)
          else if l.kind == .hostBay && decide (imgBay img < 4096) && (s.bay b).occupied then .next (t.loadRefused .refusedState 0 0 0)
          else .next t

/-! ### The commit (R259, R266, R267) -/

/-- What stays of a bay when the codex is replaced: its counts, events and archive-tier configuration.
[log DEDUCED 112] -/
def Bay.counts (x : Bay) : Bay :=
  { passes := x.passes, preempts := x.preempts, resets := x.resets, ovfSets := x.ovfSets, bmHits := x.bmHits,
    bmOvf := x.bmOvf, bmDelta := x.bmDelta, bmAtT := x.bmAtT, bmConc := x.bmConc, bmNoWay := x.bmNoWay,
    bmEvict := x.bmEvict, bmPathBad := x.bmPathBad, bmBadWrite := x.bmBadWrite }

/-- Write a TICKETS record into its router, with the epochs that the readers hold now (R259). -/
def State.writeTickets (s : State) (t : TicketRecord) : State :=
  s.modRouter (alcoveAt t.ax t.ay) (fun x =>
    { x with tickets := t.entries.map (fun e => { ticket := s.ticketOf e.1, ports := e.2 }) })
/-- Leave the routers that a test picks without entries. -/
def State.clearTickets (s : State) (which : Nat → Bool) : State :=
  s.routers.foldl (fun (t : State) (e : Nat × Router) =>
    if which e.1 then { t with routers := Tbl.set {} t.routers e.1 { e.2 with tickets := [] } } else t) s

/-- Requests that wait and that the codex in force no longer binds end REFUSED (R266). [log DEDUCED 111] -/
def State.refuseUnbound (s : State) : State :=
  let gone := s.cands.filter (fun q => (s.refusal24 q).isSome)
  let s : State := { s with cands := s.cands.filter (fun q => (s.refusal24 q).isNone) }
  let s := gone.foldl (fun t q => t.refuse q ((t.refusal24 q).getD 2)) s
  s.readerIds.foldl (fun t r => t.modReader r (fun x =>
    { x with dropWait := x.dropWait.map (fun w => (w.1, w.2.or (s.refusal24 w.1))) })) s

/-- The trims and fractions follow the bays of the codex in force. -/
def State.codexChanged (s : State) : State := (if s.trimOpen then s.trimAll else s).updateFractions

/-- The old codex goes: no bay, no volume, no bookmark, no ticket. [log DEDUCED 112] -/
def State.dropCodex (s : State) : State :=
  let s := s.bays.foldl (fun (t : State) (e : Nat × Bay) =>
    { t with bays := Tbl.set {} t.bays e.1 e.2.counts }) s
  let c := { s.cdx with codex := none, sample := false, cseq := 0, profile := 0, hash := [] }
  ({ s with cdx := c } : State).clearTickets (fun _ => true)

/-- A whole codex takes effect at one tick. -/
def State.commitWhole (s : State) (img : List Byte) (rom : Bool) : State :=
  let x := parseCodex img
  let h := imgHash img
  let s := s.dropCodex
  let c := { s.cdx with
    codex := some x, sample := rom, cseq := BitVec.ofNat 32 (imgSeq img), profile := BitVec.ofNat 16 (fieldAt img 6 2),
    hash := h }
  let s : State := { s with cdx := c }
  let s := x.bays.foldl (fun t e => t.modBay e.bay (fun y => { y with chash := h })) s
  x.tickets.foldl (fun t r => t.writeTickets r) s

/-- The codex in force with the entries of one bay replaced by those of an image (R267). [log DEDUCED 113] -/
def Codex.withBay (x y : Codex) (b : BayId) : Codex :=
  let keep {α : Type} (bay : α → BayId) (old new : List α) : List α := new ++ old.filter (fun e => bay e != b)
  let mine (t : TicketRecord) : Bool := y.bays.any (fun e => e.inAlcove t.ax t.ay)
  { bays := keep (·.bay) x.bays y.bays, windows := keep (·.bay) x.windows y.windows,
    wafermap := keep (·.bay) x.wafermap y.wafermap, crossings := keep (·.bay) x.crossings y.crossings,
    tickets := y.tickets ++ x.tickets.filter (fun t => !mine t), readers := keep (·.bay) x.readers y.readers,
    qos := x.qos, loans := keep (·.bay) x.loans y.loans, duplex := x.duplex, allow := keep (·.bay) x.allow y.allow,
    tables := y.tables ++ x.tables, programs := keep (·.bay) x.programs y.programs,
    alternates := keep (·.bay) x.alternates y.alternates }

/-- A VSLOT keeps its volume where the bay's new ALLOW entry names its hash (R273). -/
def Codex.keeps (x : Codex) (b : BayId) (slot : Nat) (v : Option Volume) : Bool :=
  match v with
  | none => false
  | some v => (x.volumesOf b (BitVec.ofNat 8 slot)).contains v.hash

/-- One bay's sections take effect at one tick. [log DEDUCED 113] -/
def State.commitBay (s : State) (x : Codex) (img : List Byte) (b : BayId) : State :=
  let y := parseCodex img
  let s : State := { s with cdx := { s.cdx with codex := some x } }
  let s := s.modBay b (fun z =>
    { z with chash := imgHash img, bookmarks := [], writing := none, vslots := z.vslots.filter (fun e => x.keeps b e.1 e.2),
             phase := .idle, ctrStd := [], ctrBulk := [], stdRun := 0, warm := false, altSet := 0, waveSet := none, waveHold := false, partsNotReady := [] })
  let mine (a : Nat) : Bool :=
    y.bays.any (fun e => e.inAlcove (a % 136) (a / 136))
  let s := s.clearTickets mine
  y.tickets.foldl (fun t r => t.writeTickets r) s

/-- The checks of Table 11.9 on an image, and the codex that would stand. [log DEDUCED 107] -/
def State.checkImage (s : State) (l : CodexLoad) (img : List Byte) : Option CheckFail × Codex :=
  let y := parseCodex img
  match l.kind with
  | .hostBay =>
    let x := match s.cdx.codex with
      | none => y
      | some c => c.withBay y l.bay
    ((s.checks15 img 1 false).or ((s.check06 img).or ((check07 img (some l.bay)).or (s.checks8 img x))), x)
  | k => ((s.checks15 img 0 k.fromRom).or ((check07 img none).or (s.checks8 img y)), y)

/-- CODEX_LOAD_END: the image is whole; it is refused, or it commits (R252, R262, R266, R267). -/
def execCodexLoadEnd (s : State) : Out :=
  match s.cdx.load with
  | none => .next s
  | some l =>
    if !l.headerRead || s.frozen || s.cur.lost then .next s
    else match s.loadImage l with
      | none => .next (s.loadRefused .badImage 1 0 0)
      | some img =>
        if l.kind.fromHost && decide (img.length < s.cdx.srcLen.toNat) then .next s
        else match s.checkImage l (if l.kind.fromHost then img.take s.cdx.srcLen.toNat else img) with
          | (some e, _) => .next (s.loadRefused e.result e.check e.section_ e.item)
          | (none, x) =>
            let t := if l.kind == .hostBay then s.commitBay x img l.bay else s.commitWhole img l.kind.fromRom
            let t := ((t.cdxEnd .done 0 0 0).refuseUnbound).codexChanged
            .next (if t.cur.stage == .codex then t.toReady else t.settle)

/-- UNLOAD (OP 0x5). -/
def execUnload (s : State) : Out :=
  if s.commandsDropped then .next s
  else if s.codexBusy then .next (s.cdxPost .busy 0 0 0)
  else if s.anyPass then .next (s.cdxPost .refusedState 0 0 0)
  else .next ((s.dropCodex.cdxPost .done 0 0 0).refuseUnbound.codexChanged).settle

end Sys2Proof.Machine
end

