-- ==== Sys2Proof/Machine/Volume.lean ====
section
/-! DEFINITION. Machine/Volume.lean: volumes, and the commands of the BAY and BKM blocks (R271 to R276, R290, R291,
R294 to R297, R313, R412). -/

namespace Sys2Proof.Machine

/-! ### Volume images (Tables 12.1 and 13.1) -/

/-- Delta metadata obeys Table 13.1. -/
def deltaOk (img : List Byte) (d workBase : Nat) : Bool :=
  let flags := fieldAt img (d + 3) 1
  let sram := fieldAt img (d + 4) 2
  let bytes := fieldAt img (d + 6) 2
  decide (d + 16 ≤ img.length ∧ 1 ≤ fieldAt img d 2 ∧ fieldAt img d 2 ≤ 4096 ∧ fieldAt img (d + 2) 1 ≤ 2 ∧ flags < 4 ∧
      workBase ≤ sram ∧ sram % 64 = 0 ∧ 64 ≤ bytes ∧ bytes ≤ 4096 ∧ bytes % 64 = 0 ∧ sram + bytes ≤ 0xC000) &&
    (natBits flags 0 1 == 0 || fieldAt img (d + 2) 1 == 0) && (natBits flags 1 1 == 1 || fieldAt img (d + 8) 4 == 0) &&
    allZero (bytesAt img (d + 12) 4)

/-- A volume image: its header fields are valid and its length is 64 plus the part table (order 3 of Table 12.2).
[log DEDUCED 116] -/
def parseVolume (img : List Byte) : Option Volume :=
  let w := fieldAt img 10 2
  let h := fieldAt img 12 2
  let l := fieldAt img 14 2
  let wb := fieldAt img 16 2
  let il := fieldAt img 18 2
  let ib := fieldAt img 24 2
  let sl := fieldAt img 28 4
  let d := fieldAt img 32 4
  let part := 49152 + sl
  let ok := decide (64 ≤ img.length) && bytesAt img 0 4 == [0x50, 0x5A, 0x56, 0x4C] && fieldAt img 4 2 == 1 &&
    decide (fieldAt img 8 1 < 2) && fieldAt img 9 1 == 0 && decide (1 ≤ w ∧ 1 ≤ h) &&
    decide (4 ≤ l ∧ l ≤ 4096 ∧ l % 4 = 0 ∧ wb % 16 = 0 ∧ wb ≤ 0xC000) &&
    decide (4 ≤ il ∧ il ≤ 4096 ∧ il % 4 = 0 ∧ fieldAt img 20 2 < w ∧ fieldAt img 22 2 < h) &&
    decide (ib % 16 = 0 ∧ wb ≤ ib ∧ ib + il ≤ 0xC000 ∧ sl % 64 = 0 ∧ sl ≤ 4145152) &&
    allZero (bytesAt img 26 2) && allZero (bytesAt img 36 28) && decide (img.length = 64 + w * h * part) &&
    (d == 0 || deltaOk img d wb)
  if ok then
    some
      { hash := sha256 img, pure_ := natBits (fieldAt img 8 1) 0 1 == 1, w := w, h := h, len := l, workBase := wb,
        inLen := il, inDx := fieldAt img 20 2, inDy := fieldAt img 22 2, inBase := ib, stacksLen := sl, region := 0,
        delta := if d = 0 then none
          else some (fieldAt img d 2, fieldAt img (d + 2) 1, fieldAt img (d + 4) 2, fieldAt img (d + 6) 2),
        parts := (List.range (w * h)).map (fun i => bytesAt img (64 + part * i) part) }
  else none

/-- The length of a volume's image. -/
def Volume.imageLen (v : Volume) : Nat := 64 + v.w * v.h * v.partLen

/-- The lowest offset of the VOLUME area where a region of `n` bytes fits beside those in use, rising (R273).
[log DEDUCED 117] -/
def lowestFit (n pos : Nat) : List (Nat × Nat) → Option Nat
  | [] => if pos + n ≤ 0x400000 then some pos else none
  | (o, k) :: r => if pos + n ≤ o then some pos else lowestFit n (max pos (o + k)) r
/-- Insert a region into a list that rises by offset. -/
def insertRegion (q : Nat × Nat) : List (Nat × Nat) → List (Nat × Nat)
  | [] => [q]
  | x :: r => if q.1 ≤ x.1 then q :: x :: r else x :: insertRegion q r
/-- The regions of a bay's volumes but one VSLOT's. [log DEDUCED 117] -/
def Bay.regions (x : Bay) (skip : Option Byte) : List (Nat × Nat) :=
  (x.vslots.filterMap (fun e =>
    if skip.map (fun b => b.toNat) = some e.1 then none else e.2.map (fun v => (v.region, v.regionLen)))).foldl
    (fun l q => insertRegion q l) []

/-- Bytes that the volume library holds (R275, R412): also those of the volume that the load is to replace, since it is
held until the load is done; a duplex pair shares its image. [log DEDUCED 118] -/
def State.libraryUse (s : State) : Nat :=
  (s.bayIds.map (fun c =>
    if s.isSecond c then 0
    else ((s.bay c).vslots.map (fun e =>
      match e.2 with
      | none => 0
      | some v => v.imageLen)).sum)).sum
/-- Bytes of the volume library: 4 GiB on each populated channel in service. [log DEDUCED 118] -/
def State.librarySize (s : State) : Nat := 2 ^ 32 * ((List.range 256).filter s.channelInService).length

/-! ### BAY commands -/

/-- Order 1 of Table 12.2 and item 1 of R274: another BAY command, a codex load, a freeze or a takeover is in progress.
[log DEDUCED 115, 120] -/
def State.bayBusy (s : State) : Bool :=
  s.frozen || s.bayRegs.pausing.isSome || s.bayRegs.resetting.isSome || s.cdx.load.isSome || s.cur.taking
/-- The bay exists. -/
def State.bayExists (s : State) (b : BayId) : Bool := (s.bayEntry b).isSome
/-- A running or shelved pass of the bay, or of its partner, uses a VSLOT. -/
def State.slotUsed (s : State) (b : BayId) (slot : Byte) : Bool :=
  (s.pair b).any (fun c => (s.bay c).allPasses.any (fun p => p.req.vslot == slot))

/-- A BAY command other than LOAD_VOLUME, under R274: the failing item and its result, or its effect. `own` holds the
item of its own that fails. [log DEDUCED 114] -/
def State.bayCommand (s : State) (b : BayId) (own : Option Nat) (act : State → State) : Out :=
  if s.commandsDropped then .next s
  else if s.bayBusy || s.bayRegs.load.isSome then .next (s.bayPost .busy 1)
  else if !s.bayExists b then .next (s.bayPost .refusedState 2)
  else if s.isSecond b then .next (s.bayPost .refusedState 3)
  else match own with
    | some n => .next (s.bayPost .refusedState n)
    | none => .next (act s).settle

/-- The VSLOT of a bay changes: its bookmarks go, or all of the bay's where S changes, a write-back under way among them,
and the first pass after a load copies the image (R280, R296, R308). -/
def Bay.putVolume (x : Bay) (slot : Byte) (v : Option Volume) : Bay :=
  let y := { x with vslots := Tbl.set none x.vslots slot.toNat v }
  let same : Bool := y.slotSize == x.slotSize
  { y with bookmarks := if same then x.bookmarks.filter (fun m => m.vslot != slot) else [],
           writing := x.writing.filter (fun p => same && p.req.vslot != slot),
           warm := x.warm && x.lastSlot != slot, loaded := x.loaded || v.isSome,
           phase := if x.phase = .refreshing ∧ x.lastSlot = slot then .idle else x.phase }

/-- EVICT frees a VSLOT's region (R273, R274). [log DEDUCED 64] -/
def execEvict (b : BayId) (vslot : Byte) (s : State) : Out :=
  let own := if ((s.bay b).volume vslot).isNone || s.slotUsed b vslot then some 4 else none
  s.bayCommand b own (fun s =>
    ((s.pair b).foldl (fun t c => t.modBay c (fun x => x.putVolume vslot none)) s).bayPost .done 0)

/-- PAUSE holds admission; it posts DONE when the bay is paused (R274, R290). -/
def execPause (b : BayId) (s : State) : Out :=
  s.bayCommand b none (fun s =>
    if (s.bay b).paused then s.bayPost .done 0
    else
      let t := (s.pair b).foldl (fun t c => t.modBay c (fun x => { x with pausing := true })) s
      { t with bayRegs := { t.bayRegs with pausing := some b } })

/-- CONTINUE ends a pause (R274, R290). [log DEDUCED 115] -/
def execBayContinue (b : BayId) (s : State) : Out :=
  let own := if (s.bay b).pausing || (s.bay b).paused then none else some 5
  s.bayCommand b own (fun s =>
    ((s.pair b).foldl (fun t c => t.modBay c (fun x => { x with pausing := false, paused := false })) s).bayPost .done 0)

/-- RESET recalls the running pass, and a pass that waits for the carrels ends; the shelved pass and the rest follow when
no pass runs (R291). -/
def execBayReset (b : BayId) (s : State) : Out :=
  s.bayCommand b none (fun s =>
    let t : State := { s with bayRegs := { s.bayRegs with resetting := some b } }
    (t.pair b).foldl (fun u c =>
      ((u.bay c).next.foldl (fun v p => v.endNext c p v.cancelBay) u).stopPassOne c u.cancelBay) t)

/-! ### LOAD_VOLUME (R272, R275) -/

/-- A segmented load ends with a result, and what it received is discarded. -/
def State.volumeEnd (s : State) (r : CmdResult) (check : Nat) : State :=
  ({ s with bayRegs := { s.bayRegs with load := none } } : State).bayPost r check

/-- A segment is accepted, and its host read begins; one that is not LAST and holds no bytes is done at once. -/
def State.startSegment (s : State) (l : VolLoad) : State :=
  let n := s.bayRegs.srcLen.toNat
  let last := s.bayRegs.imgLast
  let l := { l with segLen := n, last := last, reading := last || decide (0 < n), since := s.ext }
  let t : State := { s with bayRegs := { s.bayRegs with load := some l } }
  if l.reading then t else t.bayPost .done 0

/-- LOAD_VOLUME: a segment of an image (R275). A segment before LAST whose length is not a multiple of 4 KiB ends the load
under order 3. [log DEDUCED 114; DESIGN CHOICE 182] -/
def execLoadVolume (b : BayId) (vslot : Byte) (s : State) : Out :=
  let r := s.bayRegs
  let n := r.srcLen.toNat
  let whole := r.imgLast || n % 4096 == 0
  if s.commandsDropped then .next s
  else match r.load with
    | some l =>
      if l.reading || l.bay != b || l.vslot != vslot || s.bayBusy then .next (s.bayPost .busy 1)
      else if r.imgOff.toNat = l.bytes.length ∧ whole then .next (s.startSegment l)
      else .next (s.volumeEnd .badImage 3)
    | none =>
      if s.bayBusy then .next (s.bayPost .busy 1)
      else if r.imgOff ≠ 0 then .next (s.bayPost .badImage 3)
      else if !s.bayExists b || s.isSecond b || s.slotUsed b vslot then .next (s.bayPost .refusedState 2)
      else if n < 64 ∨ !whole then .next (s.bayPost .badImage 3)
      else .next (s.startSegment { bay := b, vslot := vslot })

/-- Orders 3 to 7 of Table 12.2 on a whole image: the failure, or the volume at its region. [log DEDUCED 117] -/
def State.checkVolume (s : State) (b : BayId) (vslot : Byte) (img : List Byte) : (CmdResult × Nat) ⊕ Volume :=
  match parseVolume img with
  | none => .inl (.badImage, 3)
  | some v =>
    let allow : Option AllowEntry := match s.cdx.codex with
      | none => none
      | some x => x.allow.find? (fun a => a.bay == b && a.vslot == vslot && a.volume == v.hash)
    match allow, s.bayEntry b with
    | some a, some e =>
      if !v.pure_ && !a.impureOk then .inl (.refusedAuth, 5)
      else if fieldAt img 6 2 ≠ s.cdx.profile.toNat ∨ v.w ≠ e.w ∨ v.h ≠ e.h then .inl (.badImage, 6)
      else
        let skip := if s.archiveWorks then some vslot else none
        let fits := !s.archiveWorks || decide (s.libraryUse + img.length ≤ s.librarySize)
        match lowestFit v.regionLen 0 ((s.bay b).regions skip) with
        | none => .inl (.noResource, 7)
        | some o => if fits then .inr { v with region := o } else .inl (.noResource, 7)
    | _, _ => .inl (.refusedAuth, 4)

/-- VOLUME_LOAD_END: the last segment has been received, and the checks decide (R272). -/
def execVolumeLoadEnd (s : State) : Out :=
  match s.bayRegs.load with
  | none => .next s
  | some l =>
    if !l.reading || !l.last || l.segLen != 0 then .next s
    else match s.checkVolume l.bay l.vslot l.bytes with
      | .inl (r, n) => .next (s.volumeEnd r n)
      | .inr v =>
        let t := (s.pair l.bay).foldl (fun t c =>
          (t.modBay c (fun x => x.putVolume l.vslot (some v))).writeRegion c v) s
        .next (t.volumeEnd .done 0).settle

/-- VOLUME_LOAD_ABANDON: 1 s has passed without a segment (R275). [log DEDUCED 114] -/
def execVolumeLoadAbandon (s : State) : Out :=
  match s.bayRegs.load with
  | none => .next s
  | some l =>
    if !l.reading && decide (l.since + 100000000 ≤ s.ext) then
      .next { s with bayRegs := { s.bayRegs with load := none } }
    else .next s

/-! ### The BKM block (R297, R308, R313, R412) -/

/-- INVALIDATE: every bookmark of the selected bay. -/
def execInvalidate (s : State) : Out :=
  if s.writesDropped then .next s
  else .next (s.modBay s.portRegs.bkmSelect (fun x => { x with bookmarks := [], writing := none }))

/-- Bytes of the bookmark overflow area that a bay takes with a number of sets: 8 ways of a slot in every carrel.
[log DEDUCED 118] -/
def State.overflowUse (s : State) (b : BayId) (sets : Nat) : Nat :=
  sets * 8 * (s.bay b).slotSize * (s.bayCarrels b).length

/-- BKM_CONFIG: the archive-tier sets of the selected bay; dropped while a pass runs or is shelved there, or where the
sets of all bays exceed the overflow area. A change invalidates the bay's archive tier. [log DEDUCED 118] -/
def execBkmConfig (sets : BitVec 24) (s : State) : Out :=
  let b := s.portRegs.bkmSelect
  let x := s.bay b
  let others := ((s.bayIds.filter (fun c => c != b)).map (fun c => s.overflowUse c (s.bay c).ovfSets.toNat)).sum
  let size := 2 ^ 31 * ((List.range 256).filter s.channelInService).length
  if s.writesDropped then .next s
  else if x.occupied || (s.archiveWorks && decide (size < others + s.overflowUse b sets.toNat)) then
    .next (s.modBay b (fun y => { y with bmBadWrite := true }))
  else if x.ovfSets = sets then .next s
  else .next (s.modBay b (fun y =>
    { y with ovfSets := sets, bookmarks := y.bookmarks.filter (fun m => !m.archive) }))

end Sys2Proof.Machine
end

