-- ==== Sys2Proof/Machine/Mailbox.lean ====
section
/-! DEFINITION. Machine/Mailbox.lean: the command mailbox (R344): wafer and reader resets, bookplate orders, ledger
checkpoints, RELINQUISH and the maker challenge (R356, R397, R402, R409, R410, R454 to R459). -/

namespace Sys2Proof.Machine

/-! ### Starting a command (R344) -/

/-- A mailbox command is written: dropped in a freeze (R67), BUSY before READY, while one runs and during a takeover,
else it runs. [log DEDUCED 120] -/
def State.mbxStart (s : State) (op : MbxOp) (tag : BitVec 16) (run : State → State) : Out :=
  if !s.pwr.powered || s.cur.lost || s.frozen then .next s
  else if !s.isReady || s.mbx.running.isSome || s.cur.taking then .next (s.mbxBusy tag)
  else .next (run { s with mbx := { s.mbx with running := some op, runTag := tag, buf := [] } }).settle

/-- Post in NVS.RESULT (Table 17.9). -/
def State.nvsPost (s : State) (r : CmdResult) (check : Nat) : State :=
  { s with nvs := { s.nvs with result := r, check := BitVec.ofNat 8 check, rseq := s.nvs.rseq + 1, cmd := none } }
/-- An order ends: its result stands in the mailbox and in NVS.RESULT (Table 17.9). -/
def State.orderPost (s : State) (r : CmdResult) (check : Nat) : State := (s.nvsPost r check).mbxPost r

/-- READER_RESET of the slot that ARG[0] names (R356). -/
def execReaderReset (tag : BitVec 16) (s : State) : Out :=
  s.mbxStart .readerReset tag (fun t => t.resetFunction ((t.mbx.args[0]).setWidth 12))

/-- A checkpoint that a mailbox command waits for (R397). -/
def State.checkpointFor (s : State) : State :=
  ({ s with led := { s.led with cpNext := true } } : State).checkpoint false
/-- LEDGER_CHECKPOINT (R397). -/
def execLedgerCheckpoint (tag : BitVec 16) (s : State) : Out :=
  s.mbxStart .ledgerCheckpoint tag (fun t => if t.led.plain then t.mbxPost .refusedState else t.checkpointFor)

/-! ### WAFER_RESET (R110, R355, R402) -/

/-- The records on the shelf are lost: what stands in the drain ring already is drained as LOST if it is written
again. [log DEDUCED 122, 128] -/
def Ledger.dropShelf (l : Ledger) : Ledger :=
  { l with staged := (l.staged.take l.written).map (fun r => { r with lost := true }) }

/-- Every candidate ends CANCELLED, and every pass with it (Table 15.2). [log DEDUCED 128] -/
def State.cancelWork (s : State) : State :=
  let s := s.readerIds.foldl (fun t r => t.readFail r) s
  let waiting := s.cands ++ s.readers.flatMap (fun e => e.2.dropWait.map (fun w => w.1))
  let s := s.readerIds.foldl (fun t r => t.modReader r (fun x => { x with dropWait := [] })) { s with cands := [] }
  let s := waiting.foldl (fun t q => t.endUnadmitted q 4 0) s
  s.bayIds.foldl (fun t b => t.endBayNow b (t.ending 4 0 recallCancel)) s

/-- The wafer starts again from BOOKPLATE, the presiding curator unchanged (R110). [log DEDUCED 96, 128] -/
def State.startAgain (s : State) : State :=
  let led := { (if s.archiveWorks then s.led else s.led.dropShelf) with started := false }
  let t : State := { s with led := led, act := .none, cur := { s.cur with restarts := 0 } }
  (t.cancelSteps.mbxPost .done).toBookplate

/-- WAFER_RESET: all work ends, the checkpoint covers it, and BOOKPLATE begins when it commits; in plain mode at
once. [log DEDUCED 128] -/
def execWaferReset (tag : BitVec 16) (s : State) : Out :=
  s.mbxStart .waferReset tag (fun t =>
    if !t.archiveWorks && !t.led.staged.isEmpty && !(t.mbx.args[0]).getLsbD 0 then t.mbxPost .refusedState
    else
      let t := t.cdxAbandon.cancelWork
      let t := t.readerIds.foldl (fun u r =>
        (u.discardAll r 3).modReader r (fun x => { x with shelf := [], overflow := 0 })) t
      let t := t.dropCodex
      let t : State := { t with bayRegs := { t.bayRegs with load := none, pausing := none, resetting := none } }
      if t.led.plain then t.startAgain else t.checkpointFor)

/-! ### Bookplate orders (R409, R410) -/

/-- A bookplate order is written: check 1, the LENGTH of check 2, and the read of the order. -/
def State.startOrder (s : State) (op : MbxOp) (tag : BitVec 16) : Out :=
  s.mbxStart op tag (fun t =>
    if t.cur.mode = .plain then t.orderPost .refusedState 1
    else if t.mbx.dataLen.toNat ≠ 4304 then t.orderPost .badImage 2
    else t)
/-- BOOKPLATE_WRITE. -/
def execBookplateWrite (tag : BitVec 16) (s : State) : Out := s.startOrder .bookplateWrite tag
/-- KEY_ENROLL. -/
def execKeyEnroll (tag : BitVec 16) (s : State) : Out := s.startOrder .keyEnroll tag
/-- KEY_REVOKE. -/
def execKeyRevoke (tag : BitVec 16) (s : State) : Out := s.startOrder .keyRevoke tag

/-- The slot image that an order is compared with: in blank mode one without fields or keys. [log DEDUCED 126] -/
def State.plateBase (s : State) : List Byte :=
  s.plateBytes.getD (bytesAt ([0x50, 0x5A, 0x42, 0x50] ++ leBytes 2 1) 0 4096)
/-- An image but for KEYS, the KEY table, BODY_CRC, SEQ and COMMIT. -/
def plateFields (bs : List Byte) : List Byte := bytesAt bs 0 128 ++ bytesAt bs 129 63 ++ bytesAt bs 448 3636
/-- One list is another with one element taken out. -/
def oneMore (more less : List (List Byte)) : Bool := (List.range more.length).any (fun i => more.eraseIdx i == less)

/-- Checks 2 to 6 of Table 17.6: the first that fails. [log DEDUCED 126] -/
def State.checkOrder (s : State) (op : MbxOp) (data : List Byte) : Option (CmdResult × Nat) :=
  let img := data.take 4096
  let block := data.drop 4096
  let keys := fieldAt img 128 1
  let blank := s.cur.mode == .blank
  let floor := if natBits (fieldAt img 8 8) 14 1 = 1 then fieldAt img 48 4 else 0
  let base := s.plateBase
  let same := plateFields img == plateFields base
  if !(bytesAt img 0 4 == [0x50, 0x5A, 0x42, 0x50] && fieldAt img 4 2 == 1 && bodyOk img 4084 && fieldAt img 4092 4 == 0 &&
      sigZeros block) then some (.badImage, 2)
  else if !((if blank then plateKeys img else s.nvs.keys).contains (sigKeyHash block) && sigVerifies block (sha256 img)) then
    some (.refusedAuth, 3)
  else if fieldAt img 4088 4 ≤ (if blank then 0 else s.nvs.seq.toNat) then some (.refusedAuth, 4)
  else if !plateFormat img || decide (keys < 1) then some (.badImage, 5)
  else if floor < s.cdx.floor.toNat then some (.refusedState, 5)
  else if op = .keyEnroll ∧ !(same && oneMore (plateKeys img) (plateKeys base)) then some (.badImage, 6)
  else if op = .keyRevoke ∧ !(same && oneMore (plateKeys base) (plateKeys img)) then some (.badImage, 6)
  else none

/-- An order has been read whole. -/
def State.orderRead (s : State) (op : MbxOp) (data : List Byte) : State :=
  match s.checkOrder op data with
  | some (r, n) => s.orderPost r n
  | none =>
    let img := data.take 4096
    s.flashStart (.bookplate s.spareSlot img) (plateSteps s.spareSlot img)

/-- An order commits: its slot, SEQ, KEY table and CODEX_FLOOR take effect at once (R410). [log DEDUCED 127] -/
def State.orderDone (s : State) (slotB : Bool) (img : List Byte) : State :=
  let p := plateOf img
  let n := { s.nvs with slot := BitVec.ofNat 2 (b2n slotB), seq := BitVec.ofNat 32 p.seq, keys := p.keys }
  ({ s with nvs := n, cdx := { s.cdx with floor := BitVec.ofNat 32 p.floor } } : State).orderPost .done 0

/-! ### RELINQUISH (R454 to R457) -/

/-- RELINQUISH: check 1, the LENGTH of check 2, and the read of the order. -/
def execRelinquish (tag : BitVec 16) (s : State) : Out :=
  s.mbxStart .relinquish tag (fun t =>
    if t.cur.mode = .plain then t.mbxPost .refusedState
    else if t.mbx.dataLen.toNat ≠ 272 then t.mbxPost .badImage
    else t)

/-- Checks 2 to 5 of Table 20.3: the first that fails. [log DEDUCED 132] -/
def State.checkRelinquish (s : State) (data : List Byte) : Option CmdResult :=
  let o := data.take 64
  let block := data.drop 64
  let flags := fieldAt o 6 2
  let seq := fieldAt o 16 8
  let cert := fieldAt o 24 8
  if !(bytesAt o 0 4 == [0x50, 0x5A, 0x52, 0x51] && fieldAt o 4 2 == 1 && decide (flags < 2) &&
      fieldAt o 8 8 == s.imprint.serial.toNat && allZero (bytesAt o 32 32) && decide (cert % 64 = 0 ∧ cert + 208 ≤ 2 ^ 32) &&
      (s.relinquished || sigZeros block)) then some .badImage
  else if !s.relinquished && !(s.nvs.keys.contains (sigKeyHash block) && sigVerifies block (sha256 o)) then
    some .refusedAuth
  else if !(match s.led.startCp with
      | none => false
      | some a => decide (a.toNat ≤ seq ∧ seq ≤ fieldAt s.led.lastCp 8 8)) then some .refusedAuth
  else if s.cdx.codex.isSome || s.cdx.load.isSome || (!s.led.staged.isEmpty && flags != 1) then some .refusedState
  else none

/-- Step 4 of R455: stacks, SRAM, archive, input buffers, bookmarks and shelves are zeroised, and the staged records
with them. [log DEDUCED 130] -/
def State.zeroise (s : State) : State :=
  let s := s.carrels.foldl (fun (t : State) (e : Nat × Carrel) =>
    { t with carrels := Tbl.set {} t.carrels e.1 { e.2 with sram := [], stackMem := [], save := none } }) s
  let s := s.bays.foldl (fun (t : State) (e : Nat × Bay) =>
    { t with bays := Tbl.set {} t.bays e.1 { e.2 with bookmarks := [] } }) s
  let s := s.readerIds.foldl (fun t r => t.modReader r (fun x => { x with shelf := [], overflow := 0, held := [] })) s
  { s with archive := [], led := s.led.dropShelf }

/-- The certificate (Table 20.4): its signature is a free value (R399). -/
def State.certificate (s : State) : List Byte :=
  let cp := s.led.lastCp
  let body :=
    [0x50, 0x5A, 0x52, 0x43] ++ leBytes 2 1 ++ leBytes 2 (b2n s.mbx.relRecover) ++ leBytes 8 s.imprint.serial.toNat ++
      bytesAt cp 8 16 ++ bytesAt cp 24 32 ++ bytesAt s.mbx.relSigner 0 32 ++ leBytes 8 s.clk.tick.toNat ++ [0xFF] ++
      List.replicate 7 0
  body ++ beBytes 48 (Config.deviceSigR s.free).toNat ++ beBytes 48 (Config.deviceSigS s.free).toNat

/-- Steps 4 and 5 of R455, or step 4 alone for a start that finds the binding relinquished (R456). -/
def State.relinquishEnd (s : State) : State :=
  let t := s.zeroise
  if t.mbx.running.isSome then
    let t := t.postWindow .certificate t.ownerFn t.mbx.relOffset t.certificate
    let t : State := { t with free := t.free + 1, mbx := { t.mbx with relinq := none } }
    t.mbxPost .done
  else
    let t : State := { t with mbx := { t.mbx with relinq := none } }
    if t.cur.stage == .codex then t.toReady else t

/-- An accepted RELINQUISH or recover: held records are discarded and CLOSE is appended and checkpointed; a repeat
goes to step 4 (R455, R456, R459). -/
def State.relinquishRun (s : State) (signer : List Byte) (offset : Nat) (recover : Bool) : State :=
  let again := s.relinquished && !recover
  let m := { s.mbx with
    relSigner := if again then List.replicate 32 0 else signer, relOffset := offset, relRecover := recover }
  let t : State := { s with mbx := m }
  if again then t.relinquishEnd
  else
    let t := t.readerIds.foldl (fun u r => u.discardAll r 3) t
    let t : State := { t with mbx := { t.mbx with relinq := some .closing } }
    let t := t.append { kind := 3, hashes := List.replicate 20 0 ++ leBytes 2 t.led.era.toNat, tAdmit := t.clk.tick }
    ({ t with led := { t.led with closed := true } } : State).checkpointFor

/-- A RELINQUISH order has been read whole. -/
def State.relinquishRead (s : State) (data : List Byte) : State :=
  match s.checkRelinquish data with
  | some r => s.mbxPost r
  | none => s.relinquishRun (sigKeyHash (data.drop 64)) (fieldAt data 24 8) false

/-! ### The maker challenge (R458, R459) -/

/-- The 64 bytes of a challenge, with a nonce drawn from the entropy source. -/
def State.challenge (s : State) (purpose : Nat) : List Byte :=
  [0x50, 0x5A, 0x43, 0x48] ++ leBytes 2 1 ++ leBytes 1 purpose ++ [0] ++ leBytes 8 s.imprint.serial.toNat ++
    bytesAt s.led.lastCp 8 8 ++ (List.range 8).flatMap (fun i => leBytes 4 (Config.entropy (s.free + i)).toNat) ++
    List.replicate 8 0
/-- A signature block by the device key (Table 11.3): R and S are free values (R399). -/
def State.deviceBlock (s : State) : List Byte :=
  s.deviceKey ++ List.replicate 7 0 ++
    beBytes 48 (Config.deviceSigR s.free).toNat ++ beBytes 48 (Config.deviceSigS s.free).toNat ++ List.replicate 8 0

/-- CHALLENGE ISSUE: the purpose stands in ARG[0] bits [3:2], the offset in ARG[1]. -/
def execChallengeIssue (tag : BitVec 16) (s : State) : Out :=
  s.mbxStart .challengeIssue tag (fun t =>
    let purpose := natBits (t.mbx.args[0]).toNat 2 2
    if purpose = 1 ∧ !t.relinquished then t.mbxPost .refusedState
    else if purpose ≠ 1 ∧ purpose ≠ 2 then t.mbxPost .unknown
    else
      let c := t.challenge purpose
      let u : State := { t with free := t.free + 8, mbx := { t.mbx with nonce := some c } }
      let v := u.postWindow .challenge u.ownerFn (u.mbx.args[1]).toNat (c ++ u.deviceBlock)
      ({ v with free := v.free + 1 } : State).mbxPost .done)

/-- An answer is written: its LENGTH, and the read of it. A LENGTH that is not an answer's is an answer that does not
match. [log DEDUCED 131] -/
def State.startAnswer (s : State) (op : MbxOp) (tag : BitVec 16) : Out :=
  s.mbxStart op tag (fun t =>
    if t.mbx.dataLen.toNat ≠ 272 then ({ t with mbx := { t.mbx with nonce := none } } : State).mbxPost .refusedAuth else t)
/-- CHALLENGE unlock. -/
def execChallengeUnlock (tag : BitVec 16) (s : State) : Out := s.startAnswer .challengeUnlock tag
/-- CHALLENGE recover. [log DEDUCED 131] -/
def execChallengeRecover (tag : BitVec 16) (s : State) : Out := s.startAnswer .challengeRecover tag

/-- An answer has been read whole: it discards the nonce, whatever its result. [log DEDUCED 131] -/
def State.answerRead (s : State) (purpose : Nat) (data : List Byte) : State :=
  let c := data.take 64
  let block := data.drop 64
  let h := sigKeyHash block
  let ok := s.mbx.nonce == some c && fieldAt c 6 1 == purpose && h == leBytes 32 Config.serviceKeyHash.toNat &&
    sigZeros block && sigVerifies block (sha256 c)
  let t : State := { s with mbx := { s.mbx with nonce := none } }
  if !ok then t.mbxPost .refusedAuth
  else if purpose = 1 then ({ t with mbx := { t.mbx with unlocked := true } } : State).mbxPost .done
  else if t.cur.mode = .plain ∨ t.cdx.codex.isSome ∨ t.cdx.load.isSome then t.mbxPost .refusedState
  else t.relinquishRun h (t.mbx.args[1]).toNat true

/-! ### What a mailbox command goes on with -/

/-- The data of the running command has been read whole. -/
def State.mbxRead (s : State) (data : List Byte) : State :=
  match s.mbx.running with
  | some .bookplateWrite => s.orderRead .bookplateWrite data
  | some .keyEnroll => s.orderRead .keyEnroll data
  | some .keyRevoke => s.orderRead .keyRevoke data
  | some .relinquish => s.relinquishRead data
  | some .challengeUnlock => s.answerRead 1 data
  | some .challengeRecover => s.answerRead 2 data
  | _ => s
/-- A host read of the command's data failed (R316): nothing changes, an answer's nonce apart. [log DEDUCED 125] -/
def State.mbxReadFailed (s : State) : State :=
  match s.mbx.running with
  | some .bookplateWrite | some .keyEnroll | some .keyRevoke => s.orderPost .refusedNotReady 0x11
  | some .relinquish => s.mbxPost .refusedNotReady
  | some .challengeUnlock | some .challengeRecover =>
    ({ s with mbx := { s.mbx with nonce := none } } : State).mbxPost .refusedNotReady
  | _ => s
/-- The running command still reads its data. -/
def State.mbxReading (s : State) : Bool :=
  (match s.mbx.running with
   | some .bookplateWrite | some .keyEnroll | some .keyRevoke =>
     !s.nvs.jobs.any (fun j => match j.kind with
       | .bookplate .. => true
       | _ => false)
   | some .relinquish | some .challengeUnlock | some .challengeRecover => s.mbx.relinq.isNone
   | _ => false)

/-- The checkpoint that the running command waited for has committed. -/
def State.mbxCheckpoint (s : State) : State :=
  let cp := s.led.lastCp
  match s.mbx.running, s.mbx.relinq with
  | some .ledgerCheckpoint, _ =>
    let out := (s.mbx.out.set 0 (BitVec.ofNat 64 (fieldAt cp 8 8))).set 1 (BitVec.ofNat 64 (fieldAt cp 16 8))
    ({ s with mbx := { s.mbx with out := out } } : State).mbxPost .done
  | some .waferReset, _ => s.startAgain
  | _, some .closing => s.relinquishFlash
  | _, _ => s

end Sys2Proof.Machine
end

