-- ==== Sys2Proof/Machine/Nvs.lean ====
section
/-! DEFINITION. Machine/Nvs.lean: the NVS commands, the flash as it works, checkpoints as they commit, and the drain
ring's head (R395, R397, R404 to R406, R414). -/

namespace Sys2Proof.Machine

/-! ### NVS commands (R414) -/

/-- A bookplate order runs. -/
def State.orderRuns (s : State) : Bool :=
  match s.mbx.running with
  | some .bookplateWrite | some .keyEnroll | some .keyRevoke => true
  | _ => false
/-- A new NVS command is answered BUSY: an NVS command or an order runs, a freeze, before READY, a takeover. -/
def State.nvsBusy (s : State) : Bool :=
  s.frozen || !s.isReady || s.nvs.cmd.isSome || s.orderRuns || s.cur.taking
/-- A result posted for a new command, which disturbs the one that runs in nothing. -/
def State.nvsAnswer (s : State) (r : CmdResult) : State :=
  { s with nvs := { s.nvs with result := r, check := 0, rseq := s.nvs.rseq + 1 } }
/-- An NVS command is written: BUSY, refused in plain mode, in which the curator never writes the flash (R130), else it
runs. [log DEDUCED 120] -/
def State.nvsStart (s : State) (cmd : NvsCmd) (run : State → State) : Out :=
  if !s.pwr.powered || s.cur.lost then .next s
  else if s.nvsBusy then .next (s.nvsAnswer .busy)
  else if s.cur.mode = .plain then .next (s.nvsAnswer .refusedState)
  else .next (run { s with nvs := { s.nvs with cmd := some cmd, buf := [] } })

/-- STORE_CODEX: above 32 MiB refused at once, else the image is read. -/
def execStoreCodex (s : State) : Out :=
  s.nvsStart .storeCodex (fun t => if decide (2 ^ 25 < t.nvs.srcLen.toNat) then t.nvsPost .noResource 0 else t)
/-- CLEAR_CODEX. -/
def execClearCodex (s : State) : Out := s.nvsStart .clearCodex (fun t => t.flashStart .clearCodex clearSteps)
/-- STORE_FIRMWARE: above the 4 MiB of an image area refused at once, else the image is read. [log DEDUCED 124] -/
def execStoreFirmware (s : State) : Out :=
  s.nvsStart .storeFirmware (fun t => if decide (2 ^ 22 < t.nvs.srcLen.toNat) then t.nvsPost .noResource 0 else t)

/-- The steps of a store: the trailer sector erased first, then the store; container, LENGTH, BODY_CRC, COMMIT
(R405). -/
def storeSteps (img : List Byte) : List FlashStep :=
  let head := leBytes 4 img.length ++ leBytes 4 0
  .erase 0x60000 65536 :: eraseSteps 0x1000000 img.length ++ pagePrograms 0x1000000 img (img.length / 256 + 1) ++
    [.program 0x60000 head, .program 0x60008 (leBytes 4 (crc32c (img ++ head)).toNat), .program 0x6000C commitBytes]
/-- The steps of a firmware write into the image not in use. [log DEDUCED 124] -/
def firmwareSteps (imageB : Bool) (img : List Byte) : List FlashStep :=
  let base := if imageB then 0x500000 else 0x100000
  eraseSteps base (2 ^ 22) ++ pagePrograms base img (img.length / 256 + 1)

/-- The image of an NVS command has been read whole. [log DEDUCED 124] -/
def State.nvsRead (s : State) (img : List Byte) : State :=
  match s.nvs.cmd with
  | some .storeCodex =>
    (match s.checks15 img 0 false with
     | some e => s.nvsPost e.result e.check
     | none => s.flashStart .codexStore (storeSteps img))
  | some .storeFirmware =>
    if Config.firmwareVerifies img then s.flashStart (.firmware !s.nvs.fwB) (firmwareSteps (!s.nvs.fwB) img)
    else s.nvsPost .refusedAuth 0
  | _ => s
/-- The running NVS command still reads its image. -/
def State.nvsReading (s : State) : Bool :=
  s.nvs.cmd.isSome && !s.nvs.jobs.any (fun j => match j.kind with
    | .codexStore | .clearCodex | .firmware _ => true
    | _ => false)

/-! ### The flash works (R404 to R406) -/

/-- One operation's effect on the flash; erases of checkpoint sectors are counted. -/
def State.flashStep (s : State) (x : FlashStep) : State :=
  match x with
  | .program off bs => { s with flash := s.flash.write Memory.erased off bs }
  | .erase off len =>
    let t : State := { s with flash := s.flash.clear off len }
    if cpRingBase ≤ off then
      let sector := (off - cpRingBase) / 65536
      { t with nvs := { t.nvs with wear := Tbl.set 0 t.nvs.wear sector (Tbl.get 0 t.nvs.wear sector + 1) } }
    else t

/-- A checkpoint has committed (R397, R400): the sector after a freshly begun one is erased ahead, a command that
waited goes on, and an event that fell during the write forms the next checkpoint. [log DEDUCED 123] -/
def State.checkpointDone (s : State) (slot : Nat) (bs : List Byte) : State :=
  let seq : DWord := BitVec.ofNat 64 (fieldAt bs 8 8)
  let start := natBits (fieldAt bs 84 1) 0 1 == 1
  let waited := s.led.cpCmd
  let again := s.led.cpAgain
  let l := { s.led with
    lastCp := bs, cpSeq := seq + 1, checkpoints := satInc s.led.checkpoints, cpBusy := false, cpAgain := false,
    cpCmd := false, startCp := if start then some seq else s.led.startCp }
  let t : State := { s with led := l }
  let next := (slot / 256 + 1) % 1024 * 256
  let t := if slot % 256 = 0 ∧ !(List.range 256).all (fun i => t.cpErased (next + i)) then
      t.flashStart .ahead [.erase (cpSector next) 65536]
    else t
  let t := if again then t.checkpoint false else t
  if waited then t.mbxCheckpoint else t

/-- A flash write is complete. -/
def State.jobDone (s : State) (k : FlashJobKind) : State :=
  match k with
  | .checkpoint slot bs => s.checkpointDone slot bs
  | .bookplate slotB img => s.orderDone slotB (img.take 4092 ++ commitBytes)
  | .errata _ | .ahead => s
  | .codexStore | .clearCodex | .firmware _ => s.nvsPost .done 0
  | .relinquish (some slotB) =>
    let n := { s.nvs with slot := BitVec.ofNat 2 (b2n slotB), seq := s.nvs.seq + 1, keys := [] }
    ({ s with nvs := n } : State).relinquishEnd
  | .relinquish none => s.relinquishEnd

/-- FLASH_PROGRAM_COMPLETE: the operation in progress is done and read back; the next begins, unless a freeze or
takeover has stopped the curator. -/
def execFlashProgramComplete (s : State) : Out :=
  match s.nvs.jobs with
  | j :: rest =>
    (match j.steps with
     | x :: more =>
       if !s.nvs.busy || !s.pwr.powered then .next s
       else
         let t := s.flashStep x
         if more.isEmpty then
           let t : State := { t with nvs := { t.nvs with jobs := rest, busy := false } }
           .next ((t.jobDone j.kind).flashNext).settle
         else
           let t : State := { t with nvs := { t.nvs with jobs := { j with steps := more } :: rest, busy := false } }
           .next t.flashNext
     | [] => .next s)
  | [] => .next s

/-! ### Checkpoints and draining -/

/-- CHECKPOINT_TIMER: 100 ms since the last checkpoint was formed, and a record appended since (R397). -/
def execCheckpointTimer (s : State) : Out :=
  if s.led.started && decide (0 < s.led.sinceCp) && decide (10000000 ≤ s.since s.led.cpTick) && s.tickRuns && !s.cur.lost then
    .next (s.checkpoint false)
  else .next s

/-- DRAIN_HEAD: the records before it leave staging; a head beyond DRAIN_TAIL is dropped (R395). [log DEDUCED 133] -/
def execDrainHead (head : BitVec 20) (s : State) : Out :=
  let l := s.led
  let n := (head.toNat + l.drainEntries - l.drHead.toNat % l.drainEntries) % l.drainEntries
  if s.writesDropped then .next s
  else if l.drainEntries ≤ head.toNat ∨ l.drainUnfreed < n then .next { s with led := { l with evBad := true } }
  else .next ({ s with led := { l with staged := l.staged.drop n, written := l.written - n, drHead := head } } : State).settle

end Sys2Proof.Machine
end

