-- ==== Sys2Proof/Machine/RegRead.lean ====
section
/-! DEFINITION. Machine/RegRead.lean: the register blocks of the BARs as a host reads them (R7 to R10, R67, R111,
R318, R319, and the register tables of every chapter). -/

namespace Sys2Proof.Machine

/-! ### Where an offset falls (Table 14.2) -/

/-- A block of BAR0. -/
inductive RegBlock where
  | cur | clk | pwr | inv | cdx | led | nvs | int | lnk | port | bay | trim | bkm
  | rdr | drop
  | folio (f : FolioId)
  | none
deriving DecidableEq, Repr

/-- The RDR block and the book drop from their base on. -/
def readerBlock (off : Nat) : RegBlock × Nat :=
  if off < 0x8000 then (.rdr, off) else if off < 0x9000 then (.drop, off - 0x8000) else (.none, off)

/-- The owner's blocks below the folio windows, by their number. -/
def ownerBlock (n off : Nat) : RegBlock × Nat :=
  match n with
  | 0 => (.cur, off) | 1 => (.clk, off) | 2 => (.pwr, off) | 3 => (.inv, off) | 4 => (.cdx, off) | 5 => (.led, off)
  | 6 => (.nvs, off) | 7 => (.int, off) | 8 => (.lnk, off) | 9 => (.port, off) | 10 => (.bay, off)
  | 11 => (.trim, off) | 12 => (.bkm, off) | 13 => readerBlock off
  | _ => (.none, off)

/-- The block of an offset in a function's BAR0, and the offset in it. -/
def State.regBlock (s : State) (fn : ReaderId) (off : Nat) : RegBlock × Nat :=
  if fn != s.ownerFn then readerBlock off
  else if off < 0x1000000 then ownerBlock (off / 65536) (off % 65536)
  else if off < 0x1400000 then (.folio (Fin.ofNat 64 ((off - 0x1000000) / 65536)), off % 65536)
  else (.none, off)

/-- The bytes of a function's BAR. [log DEDUCED 151] -/
def State.barSize (s : State) (a : HostAccess) : Nat :=
  if a.bar2 then 4096 else if a.fn = s.ownerFn then 2 ^ 26 else 65536

/-- A register access that R10 allows. [log DEDUCED 151] -/
def accessOk (a : HostAccess) : Bool :=
  (a.size == 1 || a.size == 2 || a.size == 4 || a.size == 8) && a.offset % a.size == 0

/-- The bits of a register that an access covers. -/
def laneMask (off size : Nat) : DWord := BitVec.ofNat 64 ((2 ^ (8 * size) - 1) * 2 ^ (8 * (off % 8)))

/-! ### Fields -/

/-- A register from the values of its fields, each by its lowest bit. -/
def packed (fs : List (Nat × Nat)) : Nat := (fs.map (fun f => f.2 * 2 ^ f.1)).sum
/-- An access with mask `m` covers some bit of a field. [log DEDUCED 145] -/
def touches (m : DWord) (lo w : Nat) : Bool := natBits m.toNat lo w != 0
/-- An rc field after a read: zero where the read covered it (R7). [log DEDUCED 145] -/
def rc {n : Nat} (m : DWord) (lo w : Nat) (v : BitVec n) : BitVec n := if touches m lo w then 0 else v

/-! ### The device's own state as the registers show it -/

/-- BAY.STATE.STATE (Table 12.7). [log DEDUCED 150] -/
def State.bayCode (s : State) (b : BayId) : Nat :=
  let x := s.bay b
  if (s.bayEntry b).isNone then 0
  else if (s.pair b).any (fun c => s.bayRegs.resetting == some c) then 7
  else if x.paused then 6
  else match x.phase with
    | .setup => 3
    | .running | .recalled => 4
    | .shelvingOut | .shelvingIn | .resumeIssued => 5
    | .idle | .refreshing => if x.vslots.isEmpty then 1 else 2

/-- BAY.STATE bits [11:0] of a bay. -/
def State.bayShown (s : State) (b : BayId) : Nat :=
  if (s.bayEntry b).isNone then 0
  else packed [(0, s.bayCode b), (3, b2n (s.bay b).shelved.isSome), (4, (s.bay b).lastSlot.toNat)]

/-- The READERS entry that binds a reader to a bay in a class. -/
def State.isGranted (s : State) (r : ReaderId) (b : BayId) (cls : BitVec 2) : Bool :=
  match s.cdx.codex with
  | none => false
  | some c => c.readers.any (fun e => e.reader == r && e.bay == b && e.classes.getLsbD cls.toNat)

/-- The number of a folio clock state (Table 3.10). -/
def FolioClock.code : FolioClock → Nat
  | .warm => 0 | .dim => 1 | .dark => 2 | .off => 3
/-- The number of a folio state (Table 5.6). -/
def FolioState.code : FolioState → Nat
  | .present => 0 | .passThrough => 1 | .blocked => 2
/-- The number of a mode (Table 5.5). -/
def Mode.code : Mode → Nat
  | .normal => 0 | .blank => 1 | .plain => 2
/-- The number of a link state (Table 16.5). -/
def LinkState.code : LinkState → Nat
  | .off => 0 | .training => 1 | .routed => 2 | .mesochronous => 3 | .failed => 4 | .miswired => 5

/-- Eight bytes of a byte string as a register, zero past its end. -/
def bytesReg (bs : List Byte) (k : Nat) : Nat := fieldAt bs (8 * k) 8

/-! ### Reads, block by block; `i` is the register's offset divided by 8 -/

/-- CUR and the mailbox (Tables 5.5, 14.12), as the port of the reader sees them. [log DEDUCED 80] -/
def State.readCur (s : State) (p : PortId) (i : Nat) : Nat :=
  let u := s.cur
  let m := s.mbx
  match i with
  | 0 =>
    let h := (s.port p).shadow
    if h = .none then packed [(0, u.stage.code), (8, u.cause.code), (16, u.restarts), (20, u.mode.code)]
    else packed [(0, Stage.halted.code), (8, h.code), (16, u.restarts), (20, u.mode.code)]
  | 1 => packed [(0, b2n u.leafB), (1, b2n u.standby), (2, b2n u.takeover)]
  | _ =>
    if inSpan i 0x20 12 then (u.stageTick.toArray.getD (i - 0x20) 0).toNat
    else if i = 0x201 then packed [(0, m.dataOff.toNat), (32, m.dataLen.toNat)]
    else if inSpan i 0x208 8 then (m.args.toArray.getD (i - 0x208) 0).toNat
    else if i = 0x210 then
      packed [(0, m.result.code), (8, b2n m.running.isSome), (16, m.tag.toNat), (32, m.seq.toNat)]
    else if inSpan i 0x218 8 then (m.out.toArray.getD (i - 0x218) 0).toNat
    else 0

/-- CLK.FOLIO_STATE: 32 folios from `f0` on. -/
def State.folioStates (s : State) (f0 : Nat) : Nat :=
  packed ((List.range 32).map (fun k => (2 * k, (s.folio (Fin.ofNat 64 (f0 + k))).clock.code)))

/-- CLK (Tables 3.5 to 3.10). -/
def State.readClk (s : State) (i : Nat) : Nat :=
  let c := s.clk
  match i with
  | 0 => packed [(0, c.ready.toNat), (8, c.present.toNat), (16, c.inWindow.toNat), (24, c.locked.toNat),
      (32, c.active.val), (35, b2n c.activeValid), (36, c.standby.toNat)]
  | 1 => packed [(0, c.active.val), (4, c.standby.toNat), (8, b2n c.strict)]
  | 2 => packed [(0, c.result.code), (8, c.source.toNat), (16, c.seq.toNat)]
  | 3 => packed [(0, c.evLost.toNat), (8, b2n c.evFailover), (9, b2n c.evDead), (10, b2n c.evResumed),
      (11, b2n c.evFallback)]
  | 4 => c.tick.toNat
  | 5 => packed [(0, s.waferState), (4, c.freq.toNat)]
  | 6 => c.target.toNat
  | 7 => c.dimIdle.toNat
  | 8 => c.dark.toNat
  | 9 => s.folioStates 0
  | 10 => s.folioStates 32
  | 11 => packed [(0, c.failovers.toNat), (16, c.deadFreezes.toNat), (32, c.dimWakes.toNat)]
  | _ =>
    if inSpan i 12 8 then
      (if c.activeValid && c.active.val == i - 12 then packed [(0, 0), (32, 1)]
       else packed [(0, (c.ppmOffset.toArray.getD (i - 12) 0).toNat), (32, b2n (bitOf c.ppmValid (i - 12)))])
    else 0

/-- PWR (Tables 4.6 to 4.8). [log DEDUCED 148] -/
def State.readPwr (s : State) (i : Nat) : Nat :=
  let p := s.pwr
  match i with
  | 0 => packed [(0, p.cap.toNat), (12, p.capWindow.toNat), (19, p.ceiling)]
  | 1 => packed [(0, p.folioA.toNat), (16, p.stacksA.toNat), (32, p.railWindow.toNat % 64)]
  | 2 => packed [(0, p.asserted.toNat), (4, p.latched.toNat), (16, p.hold.toNat)]
  | 3 => packed [(0, p.now.toNat), (24, p.avg.toNat)]
  | 4 => packed [(0, b2n p.evRail), (1, b2n p.evCap), (2, b2n p.evCapHold), (3, b2n p.evAlert), (4, b2n p.evCancel),
      (5, b2n p.evCalib), (6, b2n p.evBadWrite)]
  | 5 => packed [(0, p.throttles.toNat), (16, p.alerts.toNat), (32, p.overruns.toNat)]
  | _ =>
    if inSpan i 0x20 64 then
      let f : FolioId := Fin.ofNat 64 (i - 0x20)
      packed [(0, (s.folio f).iAvg.toNat), (16, s.folioFraction f), (24, (s.folio f).setpoint)]
    else if inSpan i 0x60 4 then (p.stacksAvg.toArray.getD (i - 0x60) 0).toNat
    else 0

/-- INV (Table 5.6). -/
def State.readInv (s : State) (i : Nat) : Nat :=
  let v := s.inv
  let n := (maskList v.present).length
  match i with
  | 0 => packed [(0, 0xB0), (8, b2n s.imprint.b2)]
  | 1 => s.imprint.serial.toNat
  | 2 => v.present.toNat
  | 3 => v.passMask.toNat
  | 4 => packed [(0, v.tag.toNat), (32, n), (39, b2n (n == 64)), (40, b2n v.valid)]
  | 5 => packed [(0, v.factory.length % 65536), (16, v.field.length % 65536), (32, v.new.length % 65536),
      (48, (v.new.filter (fun e => e.source == 2)).length % 65536)]
  | 6 => packed [(0, b2n v.evNew), (1, b2n v.evFull), (2, b2n v.evChanged)]
  | 7 => v.index.toNat
  | 8 =>
    match s.errata[v.index.toNat]? with
    | none => 0
    | some e => errataNat e
  | _ =>
    if inSpan i 0x20 64 then
      let x := s.folio (Fin.ofNat 64 (i - 0x20))
      packed [(0, x.state.code), (2, x.cause.toNat), (6, x.faulty.toNat), (15, x.spares.toNat)]
    else 0

/-- CDX (Table 11.11). -/
def State.readCdx (s : State) (i : Nat) : Nat :=
  let c := s.cdx
  match i with
  | 1 => c.srcAddr.toNat
  | 2 => c.srcLen.toNat
  | 3 => packed [(0, c.result.code), (8, c.check.toNat), (16, c.section_.toNat), (24, c.item.toNat), (48, c.seq.toNat)]
  | 4 => packed [(0, if c.load.isSome then 2 else b2n c.codex.isSome), (2, b2n c.sample), (32, c.cseq.toNat)]
  | 5 => c.floor.toNat
  | _ => if inSpan i 8 4 then bytesReg c.hash (i - 8) else 0

/-- LED (Table 17.8). -/
def State.readLed (s : State) (i : Nat) : Nat :=
  let l := s.led
  match i with
  | 0 => b2n l.drainEn
  | 1 => packed [(0, l.drBase.toNat), (32, l.drSize.toNat)]
  | 2 => l.mirror.toNat
  | 3 => l.drHead.toNat
  | 4 => l.drTail.toNat
  | 5 => packed [(0, l.epoch.toNat), (16, b2n l.plain), (17, b2n l.ring), (18, b2n !(l.hasRoom 2))]
  | 6 => l.nextIndex % 2 ^ 48
  | 7 => l.nextAccession.toNat
  | 8 => packed [(0, l.staged.length % 2 ^ 32), (32, l.reserved % 2 ^ 32)]
  | 9 => l.capacity % 2 ^ 32
  | 10 => packed [(0, b2n l.evHalf), (1, b2n l.evFull), (2, b2n l.evLost), (3, b2n l.evBad)]
  | 11 => packed [(0, l.checkpoints.toNat), (32, l.rewrites.toNat), (48, l.lostCount.toNat)]
  | _ =>
    if inSpan i 0x20 32 then bytesReg l.lastCp (i - 0x20)
    else if inSpan i 0x40 13 then
      bytesReg s.deviceKey (i - 0x40)
    else 0

/-- NVS (Table 17.9). -/
def State.readNvs (s : State) (i : Nat) : Nat :=
  let n := s.nvs
  match i with
  | 0 => packed [(0, n.slot.toNat), (2, b2n n.flashOk), (3, b2n n.fwB), (4, n.keys.length % 16), (32, n.seq.toNat)]
  | 1 => n.set.toNat
  | 3 => packed [(0, n.srcOff.toNat), (32, n.srcLen.toNat)]
  | 4 => packed [(0, n.result.code), (8, n.check.toNat), (16, n.rseq.toNat)]
  | 5 => n.readOff.toNat
  | 6 => if n.flashOk then leNat (s.flashRead n.readOff.toNat 8) else 2 ^ 64 - 1
  | 7 => packed [(0, b2n n.evTorn), (1, b2n n.evTornCp), (2, b2n n.evNoFlash)]
  | 8 => (n.wear.foldl (fun m e => max m e.2) 0) % 2 ^ 32
  | _ => 0

/-- INT (Table 18.6). -/
def State.readInt (s : State) (i : Nat) : Nat :=
  let n := s.int
  match i with
  | 0 => packed [(0, n.failed.toNat), (16, b2n n.done), (17, b2n n.pass), (24, n.withdrawn.toNat), (32, n.ticks.toNat)]
  | 1 => n.folios.toNat
  | 2 => packed [(0, n.ports.toNat), (8, b2n n.standby)]
  | 3 => packed [(0, n.compared.toNat), (32, n.mismatches.toNat), (48, n.unpaired.toNat)]
  | 4 => n.misAcc.toNat
  | 5 => packed [(0, n.misFirst.toNat), (12, n.misSecond.toNat), (24, n.misOffset.toNat), (36, b2n n.misValid)]
  | 6 => packed [(0, n.archCe.toNat), (32, n.archUe.toNat), (48, n.archRetry.toNat)]
  | 7 => packed [(0, b2n n.evSram), (1, b2n n.evStacks), (2, b2n n.evArchive), (3, b2n n.evPlane), (4, b2n n.evMismatch)]
  | _ => if inSpan i 0x20 4 then natBits n.channels.toNat (64 * (i - 0x20)) 64 else 0

/-- LNK.LINK[n] (Table 16.5). -/
def State.readLink (s : State) (l : LinkId) (i : Nat) : Nat :=
  let x := s.link l
  match i with
  | 0 =>
    let own := packed [(0, x.state.code), (3, b2n x.disable)]
    match s.linkCrossing l, s.cdx.codex with
    | some e, some c =>
      own + packed [(4, 1), (8, e.bay.toNat), (20, e.k % 256), (28, (c.activeMask e.bay e.set l).toNat)]
    | _, _ => own
  | 1 => x.latency.toNat
  | 2 => packed [(0, x.offset.toNat), (32, b2n x.offValid)]
  | _ => packed [(0, x.replays.toNat), (16, x.fecCe.toNat), (32, x.drops.toNat), (48, x.fails.toNat)]

/-- LNK (Tables 16.4, 16.5). -/
def State.readLnk (s : State) (i : Nat) : Nat :=
  let n := s.lnk
  match i with
  | 0 => packed [(0, n.catId.toNat), (32, n.shape.toNat), (44, n.coord.toNat)]
  | 1 => packed [(0, b2n n.evFailed), (1, b2n n.evRestored), (2, b2n n.evMiswired), (3, b2n n.evMesoLost),
      (4, b2n n.evConflict)]
  | 2 => packed [(0, n.originated.toNat), (16, n.received.toNat), (32, n.adoptions.toNat)]
  | _ => if inSpan i 0x20 192 then s.readLink (Fin.ofNat 48 ((i - 0x20) / 4)) ((i - 0x20) % 4) else 0

/-- PORT[n] (Table 14.15). -/
def Port.reg (x : Port) (i : Nat) : Nat :=
  match i with
  | 0 => packed [(0, b2n x.linkUp), (1, x.speed.toNat), (3, b2n x.flit), (4, x.width.toNat), (9, b2n x.perst),
      (10, b2n x.present), (11, b2n x.vfEnable), (12, x.numVfs.toNat)]
  | 1 => packed [(0, b2n x.evDown), (1, b2n x.evUp), (2, b2n x.evPerst), (3, b2n x.evHot)]
  | 2 => packed [(0, x.downs.toNat), (16, x.flrs.toNat), (32, x.aerCe.toNat), (48, x.aerUe.toNat)]
  | 3 => packed [(0, x.captures.toNat), (32, x.records.toNat)]
  | _ => 0

/-- PORT (Table 14.15). -/
def State.readPort (s : State) (i : Nat) : Nat :=
  let q := s.portRegs
  match i with
  | 0 => q.owner.val
  | 1 => q.hold.toNat
  | 2 => packed [(0, ((s.readers.map (fun e => e.2.held.length)).sum) % 2 ^ 15), (16, q.late.toNat),
      (32, q.discards.toNat)]
  | 3 => q.select.toNat
  | 4 =>
    let x := s.reader q.select
    packed [(0, x.epoch.toNat), (4, b2n (s.isPresent q.select)), (5, s.outstandingAll q.select % 1024),
      (15, x.shelf.length % 512), (24, x.held.length % 128)]
  | _ => if inSpan i 0x20 64 then (s.port (Fin.ofNat 8 ((i - 0x20) / 8))).reg ((i - 0x20) % 8) else 0

/-- BAY (Table 12.7): registers 3 to 15 show the bay and the VSLOT of SELECT. WAITING counts every waiting request that
names the bay, also those that R284 does not yet let be chosen. [log DESIGN CHOICE 181] -/
def State.readBay (s : State) (i : Nat) : Nat :=
  let q := s.bayRegs
  let b := q.selBay
  let x := s.bay b
  match i with
  | 0 => packed [(0, b.toNat), (12, q.selSlot.toNat)]
  | 2 => packed [(0, q.srcOff.toNat), (32, q.srcLen.toNat)]
  | 3 => packed [(0, q.result.code), (8, q.check.toNat), (16, q.seq.toNat)]
  | 4 =>
    if (s.bayEntry b).isNone then 0
    else
      let waiting := (s.cands.filter (fun r => r.bayRaw == b.setWidth 16)).length
      s.bayShown b + packed [(12, b2n x.warm), (13, b2n (s.held b)), (14, b2n (s.partner b).isSome), (32, min waiting 65535)]
  | 5 => packed [(0, x.passes.toNat), (32, x.preempts.toNat), (48, x.resets.toNat)]
  | 6 =>
    match x.volume q.selSlot with
    | none => 0
    | some v => packed [(0, 1), (1, b2n v.pure_), (8, v.region % 2 ^ 23)]
  | 16 => packed [(0, q.imgOff.toNat), (48, b2n q.imgLast)]
  | _ =>
    if inSpan i 8 4 then bytesReg x.chash (i - 8)
    else if inSpan i 12 4 then
      match x.volume q.selSlot with
      | none => 0
      | some v => bytesReg v.hash (i - 12)
    else if inSpan i 0x1000 1024 then
      packed ((List.range 4).map (fun j => (16 * j, s.bayShown (BitVec.ofNat 12 (4 * (i - 0x1000) + j)))))
    else 0

/-- TRIM (Table 13.7). -/
def State.readTrim (s : State) (i : Nat) : Nat :=
  if i = 0 then packed [(0, b2n s.portRegs.evTrimBackoff), (1, b2n s.portRegs.evTrimBad)]
  else if inSpan i 0x20 64 then
    let x := s.folio (Fin.ofNat 64 (i - 0x20))
    packed [(0, x.req.toNat), (4, x.adopted.toNat), (8, x.ceiling.toNat), (12, x.allow.toNat), (16, x.overruns.toNat)]
  else 0

/-- BKM (Table 13.8). -/
def State.readBkm (s : State) (i : Nat) : Nat :=
  let b := s.portRegs.bkmSelect
  let x := s.bay b
  match i with
  | 0 => b.toNat
  | 1 => x.ovfSets.toNat
  | 2 => if (s.bayEntry b).isNone then 0 else packed [(0, x.sets % 2 ^ 16), (16, x.slotSize % 2 ^ 13)]
  | 3 => packed [(0, x.bmHits.toNat), (32, x.bmOvf.toNat)]
  | 4 => packed [(0, x.bmDelta.toNat), (32, x.bmAtT.toNat)]
  | 5 => packed [(0, x.bmConc.toNat), (16, x.bmNoWay.toNat), (32, x.bmEvict.toNat)]
  | 6 => packed [(0, b2n x.bmPathBad), (1, b2n x.bmBadWrite)]
  | _ => 0

/-- A ring's configuration register. -/
def Ring.reg (g : Ring) : Nat := packed [(0, g.base.toNat), (32, g.size.toNat)]

/-- RDR (Tables 14.16, 15.3). -/
def State.readRdr (s : State) (r : ReaderId) (i : Nat) : Nat :=
  let x := s.reader r
  match i with
  | 0 => packed [(0, r.toNat), (12, x.epoch.toNat), (16, b2n (readerIndex r == 0)), (17, b2n (r == s.ownerFn))]
  | 1 => x.window.toNat
  | 2 => packed [(0, b2n x.reqEn), (1, b2n x.verEn), (2, b2n x.notEn), (3, b2n x.dropEn)]
  | 3 => x.holdoff.toNat
  | 4 => x.reqRing.reg
  | 5 => x.reqRing.tail.toNat
  | 6 => x.reqRing.head.toNat
  | 7 => x.verRing.reg
  | 8 => x.verRing.head.toNat
  | 9 => packed [(0, x.verRing.tail.toNat), (12, b2n x.verRing.phase)]
  | 10 => x.notRing.reg
  | 11 => x.notRing.head.toNat
  | 12 => packed [(0, x.notRing.tail.toNat), (12, b2n x.notRing.phase)]
  | 13 =>
    packed ((List.finRange 8).map (fun n => (n.val, b2n !(x.drop[n].captured)))) +
      packed [(8, b2n (s.isPresent r)), (9, s.outstandingAll r % 1024), (19, x.shelf.length % 512), (28, x.held.length % 128)]
  | 14 => packed [(0, x.refused.toNat), (16, x.shelfDrops.toNat), (32, x.dropRejects.toNat), (48, x.badWrites.toNat)]
  | 15 => packed [(0, b2n (x.resetting || x.deferred)), (1, b2n x.deferred)]
  | 19 => packed [(0, x.loanBay.toNat), (12, x.loanCls.toNat)]
  | 20 =>
    if s.isGranted r x.loanBay x.loanCls then
      packed [(0, (s.loans x.loanBay x.loanCls).1.toNat), (32, (s.loans x.loanBay x.loanCls).2.toNat)]
    else 0
  | 21 => b2n (s.isGranted r x.loanBay x.loanCls)
  | _ =>
    if inSpan i 16 3 then
      let c := BitVec.ofNat 2 (i - 16)
      packed [(0, s.weight r c % 256), (8, s.maxOut r c % 1024), (18, s.outstanding r c % 1024),
        (32, (x.overdue.toArray.getD (i - 16) 0).toNat), (48, (x.cancelled.toArray.getD (i - 16) 0).toNat)]
    else 0

/-- A folio window (Tables 9.5, 18.3). -/
def Folio.reg (x : Folio) (i : Nat) : Nat :=
  match i - 0x800 with
  | 0 =>
    if i < 0x800 then 0
    else packed [(0, x.dropTicket.toNat), (16, x.dropSys.toNat), (32, x.dropHdr.toNat), (48, x.dropRoute.toNat)]
  | 1 => packed [(0, x.linkCe.toNat), (32, x.linkUe.toNat)]
  | 2 => x.blocked.toNat
  | 3 => x.pcrcFail.toNat
  | 4 =>
    let c := x.capture
    packed [(0, c.ticket.toNat), (16, c.a.toNat), (21, c.b.toNat), (26, c.port.toNat), (30, c.cause.toNat),
      (33, b2n c.valid)]
  | 0x200 => packed [(0, x.sramCe.toNat), (16, x.sramUe.toNat), (32, x.stacksCe.toNat), (48, x.stacksUe.toNat)]
  | 0x201 => x.bondRetry.toNat
  | 0x202 => packed [(0, x.planeFlit.toNat), (16, x.planeFifo.toNat), (32, x.ctrlCrc.toNat), (48, x.payCrc.toNat)]
  | 0x203 => x.replays.toNat
  | 0x204 => x.auditFail.toNat
  | _ => 0

/-- The value of a register of a block, wo fields zero (R7). -/
def State.regValue (s : State) (fn : ReaderId) (blk : RegBlock) (i : Nat) : Nat :=
  match blk with
  | .cur => s.readCur (readerPort fn) i
  | .clk => s.readClk i
  | .pwr => s.readPwr i
  | .inv => s.readInv i
  | .cdx => s.readCdx i
  | .led => s.readLed i
  | .nvs => s.readNvs i
  | .int => s.readInt i
  | .lnk => s.readLnk i
  | .port => s.readPort i
  | .bay => s.readBay i
  | .trim => s.readTrim i
  | .bkm => s.readBkm i
  | .rdr => s.readRdr fn i
  | .folio f => (s.folio f).reg i
  | .drop | .none => 0

/-! ### The effect of a read: rc fields that it covers clear (R7) -/

/-- The rc fields of LNK.LINK[n].COUNTS. -/
def Link.rcRead (x : Link) (m : DWord) : Link :=
  { x with replays := rc m 0 16 x.replays, fecCe := rc m 16 16 x.fecCe, drops := rc m 32 16 x.drops, fails := rc m 48 16 x.fails }

/-- The rc fields of PORT[n]. -/
def Port.rcRead (x : Port) (i : Nat) (m : DWord) : Port :=
  if i = 2 then
    { x with downs := rc m 0 16 x.downs, flrs := rc m 16 16 x.flrs, aerCe := rc m 32 16 x.aerCe, aerUe := rc m 48 16 x.aerUe }
  else if i = 3 then { x with captures := rc m 0 32 x.captures, records := rc m 32 32 x.records }
  else x

/-- The rc fields of BKM. -/
def Bay.rcBkm (x : Bay) (i : Nat) (m : DWord) : Bay :=
  match i with
  | 3 => { x with bmHits := rc m 0 32 x.bmHits, bmOvf := rc m 32 32 x.bmOvf }
  | 4 => { x with bmDelta := rc m 0 32 x.bmDelta, bmAtT := rc m 32 32 x.bmAtT }
  | 5 => { x with bmConc := rc m 0 16 x.bmConc, bmNoWay := rc m 16 16 x.bmNoWay, bmEvict := rc m 32 32 x.bmEvict }
  | _ => x

/-- The rc fields of RDR. -/
def Reader.rcRead (x : Reader) (i : Nat) (m : DWord) : Reader :=
  if i = 14 then
    { x with refused := rc m 0 16 x.refused, shelfDrops := rc m 16 16 x.shelfDrops,
             dropRejects := rc m 32 16 x.dropRejects, badWrites := rc m 48 16 x.badWrites }
  else if inSpan i 16 3 then
    { x with overdue := x.overdue.setIfInBounds (i - 16) (rc m 32 16 (x.overdue.toArray.getD (i - 16) 0)),
             cancelled := x.cancelled.setIfInBounds (i - 16) (rc m 48 16 (x.cancelled.toArray.getD (i - 16) 0)) }
  else x

/-- The rc fields of a folio window. -/
def Folio.rcRead (x : Folio) (i : Nat) (m : DWord) : Folio :=
  if i = 0x800 then
    { x with dropTicket := rc m 0 16 x.dropTicket, dropSys := rc m 16 16 x.dropSys, dropHdr := rc m 32 16 x.dropHdr,
             dropRoute := rc m 48 16 x.dropRoute }
  else if i = 0x801 then { x with linkCe := rc m 0 32 x.linkCe, linkUe := rc m 32 32 x.linkUe }
  else if i = 0x802 then { x with blocked := rc m 0 64 x.blocked }
  else if i = 0x803 then { x with pcrcFail := rc m 0 32 x.pcrcFail }
  else if i = 0xA00 then
    { x with sramCe := rc m 0 16 x.sramCe, sramUe := rc m 16 16 x.sramUe, stacksCe := rc m 32 16 x.stacksCe,
             stacksUe := rc m 48 16 x.stacksUe }
  else if i = 0xA01 then { x with bondRetry := rc m 0 32 x.bondRetry }
  else if i = 0xA02 then
    { x with planeFlit := rc m 0 16 x.planeFlit, planeFifo := rc m 16 16 x.planeFifo, ctrlCrc := rc m 32 16 x.ctrlCrc,
             payCrc := rc m 48 16 x.payCrc }
  else if i = 0xA03 then { x with replays := rc m 0 48 x.replays }
  else x

/-- The state after a read of a register. -/
def State.rcRead (s : State) (fn : ReaderId) (blk : RegBlock) (i : Nat) (m : DWord) : State :=
  match blk with
  | .clk =>
    if i = 11 then
      let c := { s.clk with
        failovers := rc m 0 16 s.clk.failovers, deadFreezes := rc m 16 16 s.clk.deadFreezes,
        dimWakes := rc m 32 32 s.clk.dimWakes }
      { s with clk := c }
    else s
  | .pwr =>
    if i = 5 then
      let p := { s.pwr with
        throttles := rc m 0 16 s.pwr.throttles, alerts := rc m 16 16 s.pwr.alerts, overruns := rc m 32 32 s.pwr.overruns }
      { s with pwr := p }
    else s
  | .led =>
    if i = 11 then
      let l := { s.led with
        checkpoints := rc m 0 32 s.led.checkpoints, rewrites := rc m 32 16 s.led.rewrites,
        lostCount := rc m 48 16 s.led.lostCount }
      { s with led := l }
    else s
  | .int =>
    if i = 3 then
      let n := { s.int with
        compared := rc m 0 32 s.int.compared, mismatches := rc m 32 16 s.int.mismatches, unpaired := rc m 48 16 s.int.unpaired }
      { s with int := n }
    else if i = 6 then
      let n := { s.int with
        archCe := rc m 0 32 s.int.archCe, archUe := rc m 32 16 s.int.archUe, archRetry := rc m 48 16 s.int.archRetry }
      { s with int := n }
    else s
  | .lnk =>
    if i = 2 then
      let n := { s.lnk with
        originated := rc m 0 16 s.lnk.originated, received := rc m 16 16 s.lnk.received, adoptions := rc m 32 16 s.lnk.adoptions }
      { s with lnk := n }
    else if inSpan i 0x20 192 && (i - 0x20) % 4 == 3 then s.modLink (Fin.ofNat 48 ((i - 0x20) / 4)) (fun x => x.rcRead m)
    else s
  | .port =>
    if i = 2 then
      let q := { s.portRegs with late := rc m 16 16 s.portRegs.late, discards := rc m 32 16 s.portRegs.discards }
      { s with portRegs := q }
    else if inSpan i 0x20 64 then s.modPort (Fin.ofNat 8 ((i - 0x20) / 8)) (fun x => x.rcRead ((i - 0x20) % 8) m)
    else s
  | .bay =>
    if i = 5 then
      s.modBay s.bayRegs.selBay (fun x =>
        { x with passes := rc m 0 32 x.passes, preempts := rc m 32 16 x.preempts, resets := rc m 48 16 x.resets })
    else s
  | .trim =>
    if inSpan i 0x20 64 then
      s.modFolio (Fin.ofNat 64 (i - 0x20)) (fun x => { x with overruns := rc m 16 16 x.overruns })
    else s
  | .bkm => s.modBay s.portRegs.bkmSelect (fun x => x.rcBkm i m)
  | .rdr => s.modReader fn (fun x => x.rcRead i m)
  | .folio f => s.modFolio f (fun x => x.rcRead i m)
  | .cur | .inv | .cdx | .nvs | .drop | .none => s

/-! ### What answers a read (R67, R111, R331, R339) -/

/-- Registers stand behind a freeze: also once the curators are lost (R67, R119). [log DEDUCED 80] -/
def State.regsFrozen (s : State) : Bool := s.frozen || s.cur.lost

/-- A register completes normally: in a freeze only the port controller's shadow copies of CLK.REF_STATUS, CLK.TICK and
CLK.WAFER_STATE, and of CUR.STAGE where it shows a cause of its own; before READY only CUR, CLK and INV.
[log DEDUCED 80] -/
def State.readOpen (s : State) (fn : ReaderId) (blk : RegBlock) (i : Nat) : Bool :=
  if s.regsFrozen then
    (blk == .clk && (i == 0 || i == 4 || i == 5)) ||
      (blk == .cur && i == 0 && (s.port (readerPort fn)).shadow != .none)
  else s.isReady || blk == .cur || blk == .clk || blk == .inv

/-- A byte of the book drop: COMMIT shows a captured slot (R331). -/
def Reader.dropByte (x : Reader) (off : Nat) : Byte :=
  if off % 512 = 504 ∧ x.drop[(Fin.ofNat 8 (off / 512) : Fin 8)].captured then 0xA5 else 0

/-- The MSI-X table and PBA of a function (R339). [log DEDUCED 147] -/
def Reader.msixReg (x : Reader) (i : Nat) : Nat :=
  if i < 8 then
    let v := x.vectors[(Fin.ofNat 4 (i / 2) : Fin 4)]
    if i % 2 = 0 then v.addr.toNat else packed [(0, v.data.toNat), (32, b2n v.masked)]
  else if i = 0x100 then packed ((List.finRange 4).map (fun v => (v.val, b2n x.vectors[v].pba)))
  else 0

/-- The bytes that an access takes from a register's value. -/
def laneOf (a : HostAccess) (v : Nat) : Completion := .data (leBytes a.size (v / 2 ^ (8 * (a.offset % 8))))
/-- All ones. -/
def allOnesFor (a : HostAccess) : Completion := .data (List.replicate a.size 0xFF)

/-- The answer to a host read, and the state after it. [log DEDUCED 151; DESIGN CHOICE 8] -/
def State.hostRead (s : State) (a : HostAccess) : State × Completion :=
  let i := a.offset / 8
  if s.barSize a < a.offset + a.size ∨ a.size = 0 then (s, .unsupported)
  else if a.bar2 then
    if !(accessOk a) then (s, .unsupported)
    else if s.isReady && !s.regsFrozen then (s, laneOf a ((s.reader a.fn).msixReg i))
    else (s, allOnesFor a)
  else
    let (blk, off) := s.regBlock a.fn a.offset
    if blk = .drop then
      if s.readOpen a.fn blk 0 then (s, .data ((List.range a.size).map (fun k => (s.reader a.fn).dropByte (off + k))))
      else (s, allOnesFor a)
    else if !(accessOk a) then (s, .unsupported)
    else if !s.readOpen a.fn blk (off / 8) then (s, allOnesFor a)
    else
      (s.rcRead a.fn blk (off / 8) (laneMask a.offset a.size), laneOf a (s.regValue a.fn blk (off / 8)))

/-- RC_READ: a host reads a register; what it covers of rc fields clears. It completes once the posted writes
that the function sent earlier are performed (R249). [log DESIGN CHOICE 8, 13] -/
def execRcRead (at_ : HostAccess) (s : State) : Out :=
  if s.hostLinked at_.fn && !s.behindWrite at_.fn then .next { (s.hostRead at_).1 with reply := (s.hostRead at_).2 }
  else .next s

end Sys2Proof.Machine
end

