-- ==== Sys2Proof/Machine/RegWrite.lean ====
section
/-! DEFINITION. Machine/RegWrite.lean: a host's register write, field by field, and the commands that stand behind
some registers (R7, R8, R10, R58, R67, R106, R111, R264, R274, R312, R313, R344, R346, R384, R413, R414). -/

namespace Sys2Proof.Machine

/-! ### The data of a write -/

/-- A register after a write of the bits of `m`. [log DEDUCED 146] -/
def merged (old : Nat) (v m : DWord) : Nat := ((BitVec.ofNat 64 old &&& ~~~m) ||| (v &&& m)).toNat
/-- A field of a register after a write: the new bits where the write covers it, else what it held.
[log DEDUCED 146] -/
def put {n : Nat} (w : Nat) (m : DWord) (lo : Nat) (old : BitVec n) : BitVec n :=
  if touches m lo n then BitVec.ofNat n (natBits w lo n) else old
/-- A one-bit w1c field after a write: a 1 clears it (R7). [log DEDUCED 146] -/
def w1c (v m : DWord) (bit : Nat) (old : Bool) : Bool := old && !((v &&& m).getLsbD bit)
/-- A w1c field of more bits. [log DEDUCED 146] -/
def w1cs {n : Nat} (v m : DWord) (lo : Nat) (old : BitVec n) : BitVec n :=
  old &&& ~~~(BitVec.ofNat n (natBits (v &&& m).toNat lo n))

/-- The state that a command leaves. -/
def stateOf (s : State) (o : Out) : State :=
  match o with
  | .next t => t
  | _ => s

/-! ### Commands behind registers -/

/-- MBX.CMD (Table 14.13): CHALLENGE takes its purpose from ARG[0]; an OP or purpose not listed gives UNKNOWN.
[log DEDUCED 119] -/
def State.writeMbxCmd (s : State) (op : Nat) (tag : BitVec 16) : State :=
  let unknown (t : State) : State :=
    if !t.pwr.powered || t.cur.lost || t.frozen then t
    else if !t.isReady || t.mbx.running.isSome || t.cur.taking then t.mbxBusy tag
    else ({ t with mbx := { t.mbx with result := .unknown, tag := tag, seq := t.mbx.seq + 1 } } : State).msix t.ownerFn 3
  match op with
  | 1 => stateOf s (execWaferReset tag s)
  | 2 => stateOf s (execBookplateWrite tag s)
  | 3 => stateOf s (execKeyEnroll tag s)
  | 4 => stateOf s (execKeyRevoke tag s)
  | 5 => stateOf s (execReaderReset tag s)
  | 6 => stateOf s (execLedgerCheckpoint tag s)
  | 7 => stateOf s (execRelinquish tag s)
  | 8 =>
    match natBits s.mbx.args[0].toNat 0 2 with
    | 0 => stateOf s (execChallengeIssue tag s)
    | 1 => stateOf s (execChallengeUnlock tag s)
    | 2 => stateOf s (execChallengeRecover tag s)
    | _ => unknown s
  | _ => unknown s

/-- CDX.CMD (Table 11.11). [log DEDUCED 119] -/
def State.writeCdxCmd (s : State) (op : Nat) (sample : BitVec 4) : State :=
  match op with
  | 1 => stateOf s (execLoadHostWhole s)
  | 2 => stateOf s (execLoadHostBay s)
  | 3 => stateOf s (execLoadFlash s)
  | 4 => stateOf s (execLoadRomSample sample s)
  | 5 => stateOf s (execUnload s)
  | _ => if s.commandsDropped then s else s.cdxPost (if s.frozen then .busy else .unknown) 0 0 0

/-- BAY.CMD (Table 12.7). [log DEDUCED 119] -/
def State.writeBayCmd (s : State) (op : Nat) (b : BayId) (slot : Byte) : State :=
  match op with
  | 1 => stateOf s (execLoadVolume b slot s)
  | 2 => stateOf s (execEvict b slot s)
  | 3 => stateOf s (execPause b s)
  | 4 => stateOf s (execBayContinue b s)
  | 5 => stateOf s (execBayReset b s)
  | _ => if s.commandsDropped then s else if s.frozen then s.bayPost .busy 1 else s.bayPost .unknown 0

/-- NVS.CMD (Table 17.9). [log DEDUCED 119] -/
def State.writeNvsCmd (s : State) (op : Nat) : State :=
  match op with
  | 1 => stateOf s (execStoreCodex s)
  | 2 => stateOf s (execClearCodex s)
  | 3 => stateOf s (execStoreFirmware s)
  | _ =>
    if !s.pwr.powered || s.cur.lost then s else s.nvsAnswer (if s.nvsBusy then .busy else .unknown)

/-! ### Block by block; `i` is the register's offset divided by 8, `v` and `m` the data and the bits written -/

/-- CUR and the mailbox, but for MBX.CMD. -/
def State.writeCur (s : State) (i : Nat) (v m : DWord) : State :=
  if s.writesDropped then s
  else if i = 1 then { s with cur := { s.cur with takeover := w1c v m 2 s.cur.takeover } }
  else if i = 0x201 then
    let w := v.toNat
    let x := { s.mbx with dataOff := BitVec.ofNat 32 (merged s.mbx.dataOff.toNat v m),
                          dataLen := put w m 32 s.mbx.dataLen }
    { s with mbx := x }
  else if inSpan i 0x208 8 then
    let old := (s.mbx.args.toArray.getD (i - 0x208) 0).toNat
    let x := { s.mbx with args := s.mbx.args.setIfInBounds (i - 0x208) (BitVec.ofNat 64 (merged old v m)) }
    { s with mbx := x }
  else s

/-- CLK, but for REF_SELECT. -/
def State.writeClk (s : State) (i : Nat) (v m : DWord) : State :=
  match i with
  | 3 =>
    if s.writesDropped then s
    else
      let c := { s.clk with
        evLost := w1cs v m 0 s.clk.evLost, evFailover := w1c v m 8 s.clk.evFailover, evDead := w1c v m 9 s.clk.evDead,
        evResumed := w1c v m 10 s.clk.evResumed, evFallback := w1c v m 11 s.clk.evFallback }
      { s with clk := c }
  | 6 => if touches m 0 2 then stateOf s (execFreqReq (v.setWidth 2) s) else s
  | 7 =>
    if s.writesDropped then s
    else { s with clk := { s.clk with dimIdle := BitVec.ofNat 24 (merged s.clk.dimIdle.toNat v m) } }
  | 8 => stateOf s (execFolioDark (BitVec.ofNat 64 (merged s.clk.dark.toNat v m)) s)
  | _ => s

/-- An out-of-range write of a limit or window is dropped (R106). [log DEDUCED 149] -/
def State.badPwr (s : State) : State := { s with pwr := { s.pwr with evBadWrite := true } }

/-- PWR (R106). [log DEDUCED 148, 149] -/
def State.writePwr (s : State) (i : Nat) (v m : DWord) : State :=
  if s.writesDropped then s
  else match i with
    | 0 =>
      let w := merged (s.readPwr 0) v m
      let p : Pwr := { s.pwr with cap := put w m 0 s.pwr.cap, capWindow := put w m 12 s.pwr.capWindow }
      if 200 ≤ p.cap.toNat ∧ p.cap.toNat ≤ 2200 ∧ 1 ≤ p.capWindow.toNat ∧ p.capWindow.toNat ≤ 100 then { s with pwr := p }
      else s.badPwr
    | 1 =>
      let w := merged (s.readPwr 1) v m
      let win := if touches m 32 6 then (if natBits w 32 6 = 0 then 64 else BitVec.ofNat 7 (natBits w 32 6)) else s.pwr.railWindow
      let p : Pwr := { s.pwr with folioA := put w m 0 s.pwr.folioA, stacksA := put w m 16 s.pwr.stacksA, railWindow := win }
      if 1 ≤ p.folioA.toNat ∧ p.folioA.toNat ≤ 330 ∧ 1 ≤ p.stacksA.toNat ∧ p.stacksA.toNat ≤ 400 ∧
          1 ≤ p.railWindow.toNat ∧ p.railWindow.toNat ≤ 64 then { s with pwr := p }
      else s.badPwr
    | 2 =>
      let w := merged (s.readPwr 2) v m
      let p := { s.pwr with latched := w1cs v m 4 s.pwr.latched, hold := put w m 16 s.pwr.hold }
      { s with pwr := p }
    | 4 =>
      let p := { s.pwr with
        evRail := w1c v m 0 s.pwr.evRail, evCap := w1c v m 1 s.pwr.evCap, evCapHold := w1c v m 2 s.pwr.evCapHold,
        evAlert := w1c v m 3 s.pwr.evAlert, evCancel := w1c v m 4 s.pwr.evCancel, evCalib := w1c v m 5 s.pwr.evCalib,
        evBadWrite := w1c v m 6 s.pwr.evBadWrite }
      { s with pwr := p }
    | _ => s

/-- INV. -/
def State.writeInv (s : State) (i : Nat) (v m : DWord) : State :=
  if s.writesDropped then s
  else match i with
    | 6 =>
      let x := { s.inv with
        evNew := w1c v m 0 s.inv.evNew, evFull := w1c v m 1 s.inv.evFull, evChanged := w1c v m 2 s.inv.evChanged }
      { s with inv := x }
    | 7 => { s with inv := { s.inv with index := BitVec.ofNat 16 (merged s.inv.index.toNat v m) } }
    | _ => s

/-- CDX. -/
def State.writeCdx (s : State) (i : Nat) (v m : DWord) : State :=
  match i with
  | 0 => if touches m 0 4 then s.writeCdxCmd (natBits v.toNat 0 4) (BitVec.ofNat 4 (natBits v.toNat 4 4)) else s
  | 1 =>
    if s.writesDropped then s
    else { s with cdx := { s.cdx with srcAddr := BitVec.ofNat 32 (merged s.cdx.srcAddr.toNat v m) } }
  | 2 =>
    if s.writesDropped then s
    else { s with cdx := { s.cdx with srcLen := BitVec.ofNat 29 (merged s.cdx.srcLen.toNat v m) } }
  | _ => s

/-- A dropped write of the LED block (R413). -/
def State.badLed (s : State) : State := { s with led := { s.led with evBad := true } }

/-- LED (R395, R413): a new ring starts at 0 and takes the unfreed records again; s outside 8–20 enables nothing.
[log DEDUCED 133] -/
def State.writeLed (s : State) (i : Nat) (v m : DWord) : State :=
  if s.writesDropped then s
  else match i with
    | 0 =>
      if !touches m 0 1 then s
      else if v.getLsbD 0 && !s.led.drainEn && !decide (8 ≤ s.led.drSize.toNat ∧ s.led.drSize.toNat ≤ 20) then s.badLed
      else ({ s with led := { s.led with drainEn := v.getLsbD 0 } } : State).settle
    | 1 =>
      if s.led.drainEn then s.badLed
      else
        let w := merged (s.readLed 1) v m
        let l := { s.led with drBase := BitVec.ofNat 32 (natBits w 0 32 / 4096 * 4096), drSize := put w m 32 s.led.drSize,
                              drHead := 0, drTail := 0, written := 0 }
        { s with led := l }
    | 2 =>
      if s.led.drainEn then s.badLed
      else { s with led := { s.led with mirror := BitVec.ofNat 32 (merged s.led.mirror.toNat v m % 2 ^ 32 / 8 * 8) } }
    | 3 => stateOf s (execDrainHead (BitVec.ofNat 20 (merged s.led.drHead.toNat v m)) s)
    | 10 =>
      let l := { s.led with
        evHalf := w1c v m 0 s.led.evHalf, evFull := w1c v m 1 s.led.evFull, evLost := w1c v m 2 s.led.evLost,
        evBad := w1c v m 3 s.led.evBad }
      { s with led := l }
    | _ => s

/-- NVS, but for CMD. READ_OFFSET is a multiple of 8. -/
def State.writeNvs (s : State) (i : Nat) (v m : DWord) : State :=
  if s.writesDropped then s
  else match i with
    | 3 =>
      let w := merged (s.readNvs 3) v m
      let n := { s.nvs with srcOff := put w m 0 s.nvs.srcOff, srcLen := put w m 32 s.nvs.srcLen }
      { s with nvs := n }
    | 5 => { s with nvs := { s.nvs with readOff := BitVec.ofNat 27 (merged s.nvs.readOff.toNat v m / 8 * 8) } }
    | 7 =>
      let n := { s.nvs with
        evTorn := w1c v m 0 s.nvs.evTorn, evTornCp := w1c v m 1 s.nvs.evTornCp, evNoFlash := w1c v m 2 s.nvs.evNoFlash }
      { s with nvs := n }
    | _ => s

/-- INT. -/
def State.writeInt (s : State) (i : Nat) (v m : DWord) : State :=
  if s.writesDropped then s
  else match i with
    | 5 => { s with int := { s.int with misValid := w1c v m 36 s.int.misValid } }
    | 7 =>
      let n := { s.int with
        evSram := w1c v m 0 s.int.evSram, evStacks := w1c v m 1 s.int.evStacks, evArchive := w1c v m 2 s.int.evArchive,
        evPlane := w1c v m 3 s.int.evPlane, evMismatch := w1c v m 4 s.int.evMismatch }
      { s with int := n }
    | _ => s

/-- A link that DISABLE takes out of service: packets toward it are discarded, its crossing fails, and it may train
10 ms later, once DISABLE is clear (R367, R377). [log DEDUCED 138, 144] -/
def State.disableLink (s : State) (l : LinkId) : State :=
  let was := (s.link l).inService
  let (t, out) := s.dropToward l
  let t := t.modLink l (fun k =>
    { k with state := .off, stage := 0, passed4 := false, disable := true, drops := satAdd k.drops out, words := [], partial_ := [],
             rxSeq := none, txAck := none, nackSent := false, replayAt := [],
             retryAt := if k.state = .off then k.retryAt else some (s.ext + 1000000) })
  if was then (t.failCrossing l).settle else t

/-- LNK (R384). [log DEDUCED 144] -/
def State.writeLnk (s : State) (i : Nat) (v m : DWord) : State :=
  if s.writesDropped then s
  else if i = 1 then
    let n := { s.lnk with
      evFailed := w1c v m 0 s.lnk.evFailed, evRestored := w1c v m 1 s.lnk.evRestored, evMiswired := w1c v m 2 s.lnk.evMiswired,
      evMesoLost := w1c v m 3 s.lnk.evMesoLost, evConflict := w1c v m 4 s.lnk.evConflict }
    { s with lnk := n }
  else if inSpan i 0x20 192 && (i - 0x20) % 4 == 0 && touches m 3 1 then
    let l : LinkId := Fin.ofNat 48 ((i - 0x20) / 4)
    if v.getLsbD 3 then s.disableLink l else s.modLink l (fun k => { k with disable := false })
  else s

/-- PORT (R346). -/
def State.writePort (s : State) (i : Nat) (v m : DWord) : State :=
  if s.writesDropped then s
  else if i = 1 then
    let h := merged s.portRegs.hold.toNat v m % 2 ^ 20
    if 1000000 < h then s else { s with portRegs := { s.portRegs with hold := BitVec.ofNat 20 h } }
  else if i = 3 then
    { s with portRegs := { s.portRegs with select := BitVec.ofNat 12 (merged s.portRegs.select.toNat v m) } }
  else if inSpan i 0x20 64 && (i - 0x20) % 8 == 1 then
    s.modPort (Fin.ofNat 8 ((i - 0x20) / 8)) (fun x =>
      { x with evDown := w1c v m 0 x.evDown, evUp := w1c v m 1 x.evUp, evPerst := w1c v m 2 x.evPerst,
               evHot := w1c v m 3 x.evHot })
  else s

/-- BAY. -/
def State.writeBay (s : State) (i : Nat) (v m : DWord) : State :=
  match i with
  | 1 =>
    if touches m 0 4 then
      let w := (v &&& m).toNat
      s.writeBayCmd (natBits w 0 4) (BitVec.ofNat 12 (natBits w 16 12)) (BitVec.ofNat 8 (natBits w 28 8))
    else s
  | _ =>
    let w := merged (s.readBay i) v m
    let r := s.bayRegs
    if s.writesDropped then s
    else match i with
      | 0 => { s with bayRegs := { r with selBay := put w m 0 r.selBay, selSlot := put w m 12 r.selSlot } }
      | 2 => { s with bayRegs := { r with srcOff := put w m 0 r.srcOff, srcLen := put w m 32 r.srcLen } }
      | 16 =>
        { s with bayRegs := { r with imgOff := put w m 0 r.imgOff,
                                     imgLast := if touches m 48 1 then v.getLsbD 48 else r.imgLast } }
      | _ => s

/-- TRIM (R312): a write with REQ above 4 is dropped whole. [log DEDUCED 149] -/
def State.writeTrim (s : State) (i : Nat) (v m : DWord) : State :=
  if i = 0 then
    if s.writesDropped then s
    else
      let q := { s.portRegs with
        evTrimBackoff := w1c v m 0 s.portRegs.evTrimBackoff, evTrimBad := w1c v m 1 s.portRegs.evTrimBad }
      { s with portRegs := q }
  else if inSpan i 0x20 64 then
    let f : FolioId := Fin.ofNat 64 (i - 0x20)
    let s := if touches m 0 3 then stateOf s (execTrimReqWrite f (v.setWidth 3) s) else s
    if (v &&& m).getLsbD 11 && !(touches m 0 3 && decide (4 < natBits v.toNat 0 3)) then stateOf s (execTrimClear f s)
    else s
  else s

/-- BKM (R313). -/
def State.writeBkm (s : State) (i : Nat) (v m : DWord) : State :=
  let b := s.portRegs.bkmSelect
  match i with
  | 0 =>
    if s.writesDropped then s
    else { s with portRegs := { s.portRegs with bkmSelect := BitVec.ofNat 12 (merged b.toNat v m) } }
  | 1 => if touches m 0 24 then stateOf s (execBkmConfig (BitVec.ofNat 24 (merged (s.bay b).ovfSets.toNat v m)) s) else s
  | 6 =>
    if s.writesDropped then s
    else s.modBay b (fun x => { x with bmPathBad := w1c v m 0 x.bmPathBad, bmBadWrite := w1c v m 1 x.bmBadWrite })
  | 7 => if (v &&& m).getLsbD 0 then stateOf s (execInvalidate s) else s
  | _ => s

/-- RDR (Tables 14.16, 15.3). -/
def State.writeRdr (s : State) (r : ReaderId) (i : Nat) (v m : DWord) : State :=
  let x := s.reader r
  let w := merged (s.readRdr r i) v m
  let ring (k : RingKind) : State := stateOf s (execRingConfig r k (BitVec.ofNat 32 w) (BitVec.ofNat 4 (natBits w 32 4)) s)
  let ring (k : RingKind) : State := if touches m 0 36 then ring k else s
  match i with
  | 1 => stateOf s (execRdrWindow r (BitVec.ofNat 64 w) s)
  | 2 => if touches m 0 4 then stateOf s (execRdrControl r (BitVec.ofNat 4 w) s) else s
  | 3 =>
    if s.rdrWrites r then s.modReader r (fun y => { y with holdoff := put w m 0 x.holdoff }) else s
  | 4 => ring .req
  | 5 => if touches m 0 12 then stateOf s (execDoorbell r (BitVec.ofNat 12 w) s) else s
  | 7 => ring .ver
  | 8 => if touches m 0 12 then stateOf s (execVerHead r (BitVec.ofNat 12 w) s) else s
  | 10 => ring .not
  | 11 => if touches m 0 12 then stateOf s (execNotHead r (BitVec.ofNat 12 w) s) else s
  | 19 =>
    if s.rdrWrites r then
      s.modReader r (fun y => { y with loanBay := put w m 0 x.loanBay, loanCls := put w m 12 x.loanCls })
    else s
  | _ => s

/-- A folio window: RT_CAPTURE.VALID (R227). -/
def State.writeFolio (s : State) (f : FolioId) (i : Nat) (v m : DWord) : State :=
  if i = 0x804 ∧ s.writesDropped = false then
    s.modFolio f (fun x => { x with capture := { x.capture with valid := w1c v m 33 x.capture.valid } })
  else s

/-- A register write by block (Table 14.2). -/
def State.regWrite (s : State) (fn : ReaderId) (blk : RegBlock) (i : Nat) (v m : DWord) : State :=
  match blk with
  | .cur =>
    if i = 0x200 then
      if touches m 0 8 then s.writeMbxCmd (natBits v.toNat 0 8) (BitVec.ofNat 16 (natBits (v &&& m).toNat 16 16)) else s
    else s.writeCur i v m
  | .clk =>
    if i = 1 then
      let w := merged (s.readClk 1) v m
      if touches m 0 9 then
        stateOf s (execRefSelect (BitVec.ofNat 4 w) (BitVec.ofNat 4 (natBits w 4 4)) (natBits w 8 1 == 1) s)
      else s
    else s.writeClk i v m
  | .pwr => s.writePwr i v m
  | .inv => s.writeInv i v m
  | .cdx => s.writeCdx i v m
  | .led => s.writeLed i v m
  | .nvs => if i = 2 then (if touches m 0 4 then s.writeNvsCmd (natBits v.toNat 0 4) else s) else s.writeNvs i v m
  | .int => s.writeInt i v m
  | .lnk => s.writeLnk i v m
  | .port => s.writePort i v m
  | .bay => s.writeBay i v m
  | .trim => s.writeTrim i v m
  | .bkm => s.writeBkm i v m
  | .rdr => s.writeRdr fn i v m
  | .folio f => s.writeFolio f i v m
  | .drop | .none => s

/-- A write of a function's MSI-X table: address, data, mask bit; messages of an unmasked vector are sent (R339). It is
dropped where other writes are (R67, R111).
[log DEDUCED 147] -/
def State.writeMsix (s : State) (r : ReaderId) (i : Nat) (v m : DWord) : State :=
  if i < 8 ∧ s.writesDropped = false then
    let k : Fin 4 := Fin.ofNat 4 (i / 2)
    let x := (s.reader r).vectors[k]
    let w := merged ((s.reader r).msixReg i) v m
    let y : Vector4 :=
      if i % 2 = 0 then { x with addr := BitVec.ofNat 64 w }
      else { x with data := BitVec.ofNat 32 w, masked := natBits w 32 1 == 1 }
    (s.modVector r k (fun _ => y)).unmask r
  else s

/-- The state after a host write of `a.size` bytes: the book drop takes any alignment (R319, R331). -/
def State.hostWrite (s : State) (a : HostAccess) (value : DWord) : State :=
  let v := value <<< (8 * (a.offset % 8))
  let m := laneMask a.offset a.size
  let ur : State := { s with reply := .unsupported }
  if s.barSize a < a.offset + a.size ∨ a.size = 0 then ur
  else if a.bar2 then (if accessOk a then s.writeMsix a.fn (a.offset / 8) v m else ur)
  else
    let (blk, off) := s.regBlock a.fn a.offset
    if blk = .drop then
      if a.size ≤ 8 then stateOf s (execBookDropWrite a.fn off (leBytes a.size value.toNat) s) else s
    else if !(accessOk a) then ur
    else s.regWrite a.fn blk (off / 8) v m

/-- REGISTER_WRITE: a host writes a register; each field takes the write by its access code, or the write is dropped
(R67, R111), or completes with Unsupported Request (R10). -/
def execRegisterWrite (at_ : HostAccess) (value : DWord) (s : State) : Out :=
  if s.hostLinked at_.fn && !s.behindWrite at_.fn then .next (s.hostWrite at_ value) else .next s

end Sys2Proof.Machine
end

