-- ==== Sys2Proof/Machine/Homes.lean ====
section
/-! DEFINITION. Machine/Homes.lean: requests at the homes of shared space and replies at carrels (R173, R174, R215,
R224, R233, R234, R240, R243 to R246, R250). -/

namespace Sys2Proof.Machine

/-! ### A request at its home -/

/-- The payload of a request. -/
def payloadOf (q : Packet) : List Byte := (flitBytes q.data).take q.count

/-- The endpoint of a packet answers: its router's folio takes packets, and a carrel is one of a present folio (R40,
R45). -/
def State.endpointOpen (s : State) (q : Packet) : Bool :=
  s.fabricRuns && s.folioRouts q.dstFolio && (decide (16 ≤ q.dport.toNat) || s.cellReachable q.dstCarrel)

/-- Who sent a request, by its source port (Tables 10.3, 2.2): 16 is a librarian in alcove (8, 8) of its folio, a curator, a
host port's controller, or none of these. -/
inductive Agent where
  | carrel
  | librarian (f : FolioId)
  | curator
  | portController (p : PortId)
  | other
deriving DecidableEq, Repr

/-- The agent at an alcove and port of a wafer. -/
def agentAt (a : AlcoveId) (port : Nat) : Agent :=
  if port < 16 then .carrel
  else if (curatorAlcoves false ++ curatorAlcoves true).contains a then .curator
  else if a.ax.val % 17 = 8 ∧ a.ay.val % 17 = 8 then .librarian a.folio
  else match allPorts.find? (fun p => portAlcove p == a) with
    | some p => .portController p
    | none => .other

/-- An agent reaches a location (Table 10.3). A librarian's window in space 4 is its folio's; a port controller sends BAR
accesses there (R248). An agent that the table does not name reaches nothing. [log DEDUCED 179] -/
def Agent.reaches (g : Agent) (l : Location) : Bool :=
  match g, l with
  | .curator, _ => true
  | .carrel, .sram .. | .carrel, .stackMem .. | .carrel, .archive .. => true
  | .librarian f, .sram _ c _ | .librarian f, .stackMem c _ => c.folio == f
  | .librarian f, .device off => inSpan off (0x1000000 + 0x10000 * f.val) 0x10000
  | .portController p, .host q _ _ => p.val == q
  | .portController _, .device _ => true
  | _, _ => false
/-- The sender of a request reaches a location; from another wafer only carrel SRAM can be named (R229, R231). -/
def State.senderReaches (s : State) (q : Packet) (l : Location) : Bool :=
  (agentAt (alcoveAt q.sax.toNat q.say.toNat) q.sport.toNat).reaches l &&
    (q.sw == s.ownWafer ||
      (match l with
       | .sram .. => true
       | _ => false))

/-- Two requests meet at one home: at one granule, or at one stacks port (R139, R233). -/
def State.meets (s : State) (p q : Packet) : Bool :=
  match s.locate p.call, s.locate q.call with
  | some l, some m =>
    l.home == m.home && (l.granule == m.granule ||
      (match l with
       | .stackMem .. => true
       | _ => false))
  | _, _ => false
/-- No request that a home must perform first waits at a request's endpoint: homes perform the accesses to a granule, and
stacks ports all remote ones, in the order in which they arrive (R139, R233). -/
def State.firstAtHome (s : State) (t : Transit) : Bool :=
  !(s.net.takeWhile (fun u => u != t)).any (fun u => u.dest == Wire.endpoint && !u.pkt.reply && s.meets u.pkt t.pkt)
/-- The home takes a request now: a stacks port not while it shelves, nor before the carrel's own request whose turn it is
(R139). [log DEDUCED 180] -/
def State.homeTakes (s : State) (q : Packet) : Bool :=
  match s.locate q.call with
  | some (.stackMem c _) =>
    !s.portShelves c && !((s.carrel c).cellTurn && (s.carrel c).cellWait && (s.carrel c).run == .running)
  | _ => true
/-- A stacks port has served a remote request: its carrel's own go next (R139). -/
def State.servedRemote (s : State) (l : Location) : State :=
  match l with
  | .stackMem c _ => s.modCarrel c (fun k => { k with cellTurn := true })
  | _ => s

/-- A request of a type stands on the wire to its endpoint, first of those its home must perform in order: it is taken and
its PCRC checked; one that passes is performed by its location's home where its sender reaches it, and one that fails is
answered CRC with nothing performed (R215, R231, R233). [log DEDUCED 29, 179] -/
def State.serve (s : State) (p : Packet) (type : BitVec 4) (perform : State → Packet → Location → State) : Out :=
  match s.onWire .endpoint p with
  | none => .next s
  | some t =>
    let q := t.pkt
    if q.type != type || q.reply || !s.endpointOpen q || !s.firstAtHome t || !s.homeTakes q then .next s
    else
      let s := s.takeOff .endpoint p
      if !q.crcOk then .next (s.crcRefused q)
      else match s.locate q.call with
        | none => .next s
        | some l =>
          let (a, port) := s.homePort l
          if a = alcoveAt q.dax.toNat q.day.toNat ∧ port = q.dport.toNat ∧ s.senderReaches q l then
            .next ((perform s q l).servedRemote l)
          else .next s

/-- The function whose window a space-3 call number names (R320). [log DEDUCED 31] -/
def hostFn (port fn : Nat) : ReaderId := BitVec.ofNat 12 (port * 512 + fn)

/-- The register accesses, offset and size, of a space-4 access: one of 16 bytes is carried as two of 8 (R240). -/
def registerAccesses (off n : Nat) : List (Nat × Nat) := if n = 16 then [(off, 8), (off + 8, 8)] else [(off, n)]
/-- A register access in the owner function's BAR0 map (R228). -/
def State.ownerAccess (s : State) (e : Nat × Nat) : HostAccess := ⟨s.ownerFn, false, e.1, e.2⟩
/-- Register reads in order, and their bytes; none where one has no answer. -/
def State.deviceRead (s : State) : List (Nat × Nat) → Option (State × List Byte)
  | [] => some (s, [])
  | e :: es =>
    match s.hostRead (s.ownerAccess e) with
    | (t, .data bs) => (t.deviceRead es).map (fun r => (r.1, bs ++ r.2))
    | _ => none
/-- Register writes in order. -/
def State.deviceWrite (s : State) : List (Nat × Nat) → List Byte → State
  | [], _ => s
  | e :: es, bs => (s.hostWrite (s.ownerAccess e) (BitVec.ofNat 64 (leNat (bs.take e.2)))).deviceWrite es (bs.drop e.2)

/-- A READ is performed: its home reads the value it returns (R234). Host memory answers with what the host holds; a
device register by the owner function's map (R228). [log DEDUCED 31] -/
def State.homeRead (ecc : Ecc) (s : State) (q : Packet) (l : Location) : State :=
  match l with
  | .host port fn _ =>
    if s.fnReaches (hostFn port fn) then
      ((s.reply_ (q.answer 1 0 (s.stray q.count))).drawn q.count)
    else s
  | .device off =>
    (match s.deviceRead (registerAccesses off q.count) with
     | some (t, bs) => t.answerOk q bs
     | none => s)
  | _ =>
    let t := s.countLoc l ecc
    if (l.met ecc).bad then t.answerBad q 1 else t.answerOk q (t.readLoc l q.count)

/-- A WRITE is performed: its home has written it, and then acknowledges (R234, R250). [log DEDUCED 31] -/
def State.homeWrite (ecc : Ecc) (s : State) (q : Packet) (l : Location) : State :=
  match l with
  | .host port fn off =>
    if s.fnReaches (hostFn port fn) then (s.postWindow .store (hostFn port fn) off (payloadOf q)).answerOk q [] else s
  | .device off =>
    let as := registerAccesses off q.count
    if as.all (fun e => accessOk (s.ownerAccess e) && decide (e.1 + e.2 ≤ s.barSize (s.ownerAccess e))) then
      (s.deviceWrite as (payloadOf q)).answerOk q []
    else s
  | _ =>
    let t := s.countLoc l ecc
    if (l.met ecc).bad then t.answerBad q 1 else (t.writeLoc l (payloadOf q)).answerOk q []

/-- A RESV is performed: a READ that sets its requester's entry (R243, R244). [log DEDUCED 30] -/
def State.homeResv (ecc : Ecc) (s : State) (q : Packet) (l : Location) : State :=
  if l.capacity = 0 then s
  else
    let t := s.modHome l.home (fun h => h.reserve l.capacity l.granule q.requester q.ticket)
    t.homeRead ecc q l

/-- A COND is performed or fails: rows 3 to 5 of Table 10.5. [log DEDUCED 28] -/
def State.homeCond (ecc : Ecc) (s : State) (q : Packet) (l : Location) : State :=
  if l.capacity = 0 then s
  else if (s.home l.home).condOk l.granule q.requester q.ticket then
    let t := s.countLoc l ecc
    if (l.met ecc).bad then t.answerBad q 1
    else ((t.condAt l q.requester q.ticket (payloadOf q)).1).answerOk q []
  else ((s.condAt l q.requester q.ticket (payloadOf q)).1).answerBad q 3

/-- READ. [log DESIGN CHOICE 27] -/
def execRead (p : Packet) (ecc : Ecc) (s : State) : Out := s.serve p 1 (State.homeRead ecc)
/-- WRITE. -/
def execWrite (p : Packet) (ecc : Ecc) (s : State) : Out := s.serve p 2 (State.homeWrite ecc)
/-- RESV. -/
def execResv (p : Packet) (ecc : Ecc) (s : State) : Out := s.serve p 3 (State.homeResv ecc)
/-- COND. [log DEDUCED 28; DESIGN CHOICE 27] -/
def execCond (p : Packet) (ecc : Ecc) (s : State) : Out := s.serve p 4 (State.homeCond ecc)

/-- RESERVATION_QUEUE_TIMEOUT: a queued requester that sent no COND for the granule within 100 ticks of its last
failure leaves the queue (R246). [log DEDUCED 32] -/
def execReservationQueueTimeout (home : BitVec 48) (requester : BitVec 32) (s : State) : Out :=
  match s.locate home with
  | none => .next s
  | some l =>
    .next (s.modHome l.home (fun h =>
      { h with queue := h.queue.filter (fun e =>
          !(e.granule == l.granule && e.requester == requester && decide (e.failed + 100 ≤ s.ext))) }))

/-! ### A reply at its carrel -/

/-- The fault of a reply that reports an uncorrectable error (R174). [log DEDUCED 24] -/
def replyFault (space : Nat) : Byte := if space = 0 then faultSramUe else faultStacksUe
/-- Where a fault may still be raised: the carrel runs, or completes what it started (R147). [log DEDUCED 24] -/
def CoreRun.open_ : CoreRun → Bool
  | .running | .recalling | .quiescing | .exited => true
  | _ => false
/-- A bad reply faults its carrel. [log DEDUCED 24] -/
def Carrel.badReply (k : Carrel) (space : Nat) : Carrel := if k.run.open_ then k.raise (replyFault space) else k

/-- A pending load that awaits a tag. -/
def PendingLoad.awaits (l : PendingLoad) (tag : BitVec 10) : Bool := l.pieces.any (fun q => q.tag == tag)
/-- Bytes of a piece in their place. -/
def placeBytes (buf : List Byte) (off : Nat) (bs : List Byte) : List Byte :=
  buf.take off ++ bs ++ buf.drop (off + bs.length)
/-- A piece of a load has its data. -/
def PendingLoad.fill (l : PendingLoad) (tag : BitVec 10) (bs : List Byte) : PendingLoad :=
  match l.pieces.find? (fun q => q.tag == tag) with
  | none => l
  | some q => { l with pieces := l.pieces.filter (fun o => o.tag != tag), buf := placeBytes l.buf q.off (bytesAt bs 0 q.len) }

/-- DATA at a carrel: the load's piece is filled; with its last piece the registers are written (R173). -/
def Carrel.takeData (k : Carrel) (tag : BitVec 10) (bad : Bool) (bs : List Byte) : Carrel :=
  match k.loads.find? (fun l => l.awaits tag && !l.isCond) with
  | none => k
  | some l =>
    if bad then { k with loads := k.loads.erase l }.badReply l.space
    else
      let l' := l.fill tag bs
      if l'.pieces.isEmpty then
        { k with loads := k.loads.erase l, regs := k.regs.load l.reg l.size l'.buf }
      else { k with loads := k.loads.map (fun o => if o = l then l' else o) }

/-- ACK at a carrel: a store is acknowledged, and with the last one an exited carrel reports (R224); or a conditional
store has its outcome (R245). -/
def Carrel.takeAck (k : Carrel) (tag : BitVec 10) (bad fail : Bool) : Carrel :=
  match k.stores.find? (fun t => t.tag == tag) with
  | some t =>
    let k := { k with stores := k.stores.erase t }
    if bad then k.badReply t.space
    else { k with repExited := k.repExited || (k.exitDone && k.stores.isEmpty) }
  | none =>
    match k.loads.find? (fun l => l.awaits tag && l.isCond) with
    | none => k
    | some l =>
      let k := { k with loads := k.loads.erase l }
      if bad then k.badReply l.space else { k with regs := k.regs.setG l.reg (if fail then 1 else 0) }

/-- A reply of a type stands on the wire to its requester: it is taken; a PCRC failure counts, and reads as CRC (R215). What a
reply tells a requester other than a carrel is that unit's own. [log DESIGN CHOICE 35; DEDUCED 179] -/
def State.receive (s : State) (p : Packet) (type : BitVec 4) (take : Carrel → Packet → Bool → Carrel) : Out :=
  match s.onWire .endpoint p with
  | none => .next s
  | some t =>
    let q := t.pkt
    if q.type != type || !q.reply || !s.endpointOpen q then .next s
    else
      let s := s.takeOff .endpoint p
      let s := if q.crcOk then s else s.crcRefused q
      if 16 ≤ q.dport.toNat then .next s
      else .next (s.modCarrel q.dstCarrel (fun k => take k q (!q.crcOk || q.status == 1 || q.status == 2)))

/-- DATA. -/
def execData (p : Packet) (s : State) : Out :=
  s.receive p 1 (fun k q bad => k.takeData q.tag bad (flitBytes q.data))
/-- ACK. -/
def execAck (p : Packet) (s : State) : Out := s.receive p 2 (fun k q bad => k.takeAck q.tag bad (q.status == 3))

end Sys2Proof.Machine
end

