-- ==== Sys2Proof/Machine/HostRead.lean ====
section
/-! DEFINITION. Machine/HostRead.lean: reads of host memory that complete or fail (R265, R275, R316, R322, R328, R329,
R414). -/

namespace Sys2Proof.Machine

/-- A descriptor has been read: its request is refused at once where its fields cannot name an input, is a candidate
where its input stands in it, and else waits for its input (R328, R329). [log DEDUCED 71] -/
def State.descriptorRead (s : State) (r : ReaderId) (q : Request) : State :=
  let s := s.modReader r (fun x => { x.passHead with reading := none })
  if s.badDescriptor q then
    (match s.refusal24 q with
     | some d => s.refuse q d
     | none => s)
  else if q.inInline then s.candidate q
  else s.modReader r (fun x => { x with reading := some (.room q) })

/-- Bytes of a bulk read are taken as far as `want` more are read. [log DESIGN CHOICE 79] -/
def takeBytes (buf bytes : List Byte) (len : Nat) : List Byte := buf ++ bytes.take (len - buf.length)

/-- Bytes of a bulk read for the volume load: a segment that is whole posts DONE, unless it is the last (R275).
[log DESIGN CHOICE 79] -/
def State.volumeBytes (s : State) (l : VolLoad) (bytes : List Byte) : State :=
  let got := bytes.take l.segLen
  let left := l.segLen - got.length
  let l := { l with
    bytes := l.bytes ++ got, segLen := left, reading := l.last || decide (0 < left), since := s.ext }
  let t : State := { s with bayRegs := { s.bayRegs with load := some l } }
  if left = 0 ∧ !l.last then t.bayPost .done 0 else t

/-- A host read has completed with data. The header of a codex image is read whole whatever SRC_LEN is (R265).
[log DESIGN CHOICE 79] -/
def State.readDone (s : State) (t : HostRead) (bytes : List Byte) : State :=
  match t with
  | .descriptor r =>
    (match (s.reader r).reading with
     | some (.descriptor capture order) => s.descriptorRead r (parseDescriptor r (bytesAt bytes 0 64) capture order)
     | _ => s)
  | .input r =>
    (match (s.reader r).reading with
     | some (.input q) =>
       (s.modReader r (fun x => { x with reading := none })).candidate { q with input := bytesAt bytes 0 q.inLen }
     | _ => s)
  | .codexImage =>
    (match s.cdx.load with
     | some l =>
       if l.kind.fromHost then
         let l := { l with buf := takeBytes l.buf bytes (max 64 s.cdx.srcLen.toNat) }
         { s with cdx := { s.cdx with load := some l } }
       else s
     | none => s)
  | .volumeSegment =>
    (match s.bayRegs.load with
     | some l => if l.reading && decide (0 < l.segLen) then s.volumeBytes l bytes else s
     | none => s)
  | .mailboxData =>
    if s.mbxReading then
      let n := s.mbx.dataLen.toNat
      let buf := takeBytes s.mbx.buf bytes n
      let u : State := { s with mbx := { s.mbx with buf := buf } }
      if n ≤ buf.length then u.mbxRead buf else u
    else s
  | .nvsImage =>
    if s.nvsReading then
      let n := s.nvs.srcLen.toNat
      let buf := takeBytes s.nvs.buf bytes n
      let u : State := { s with nvs := { s.nvs with buf := buf } }
      if n ≤ buf.length then u.nvsRead buf else u
    else s

/-- A host read has failed (R316). [log DEDUCED 125] -/
def State.readFailed (s : State) (t : HostRead) : State :=
  match t with
  | .descriptor r =>
    (match (s.reader r).reading with
     | some (.descriptor ..) => s.readFail r
     | _ => s)
  | .input r =>
    (match (s.reader r).reading with
     | some (.input _) => s.readFail r
     | _ => s)
  | .codexImage =>
    (match s.cdx.load with
     | some l => if l.kind.fromHost then s.loadRefused .refusedNotReady 0x11 0 (l.buf.length / 512) else s
     | none => s)
  | .volumeSegment =>
    (match s.bayRegs.load with
     | some l => if l.reading then s.volumeEnd .refusedNotReady 8 else s
     | none => s)
  | .mailboxData => if s.mbxReading then s.mbxReadFailed else s
  | .nvsImage => if s.nvsReading then s.nvsPost .refusedNotReady 0x11 else s

/-- HOST_READ_COMPLETION: with data, or with an error (R316). -/
def execHostReadCompletion (t : HostRead) (ok : Bool) (bytes : List Byte) (s : State) : Out :=
  if !s.pwr.powered then .next s
  else .next (if ok then s.readDone t bytes else s.readFailed t).settle
/-- HOST_READ_TIMEOUT: no completion within 1 ms is a failed read (R316). -/
def execHostReadTimeout (t : HostRead) (s : State) : Out :=
  if s.pwr.powered then .next (s.readFailed t).settle else .next s

end Sys2Proof.Machine
end

