-- ==== Sys2Proof/Machine/LocalMem.lean ====
section
/-! DEFINITION. Machine/LocalMem.lean: LDL and STL (R134, R138, R169, R170, R236, R238). -/

namespace Sys2Proof.Machine

/-- The checks of a local access in the order of R188, then its body over its pieces. -/
def Carrel.localAccess (k : Carrel) (c : CarrelId) (a n : Nat) (ecc : Ecc)
    (body : List (Nat × Nat × Nat) → CoreResult) : CoreResult :=
  match pieces k.regs.st.piecewise a n with
  | none => .fault k faultMisaligned {}
  | some ps =>
    if !ps.all (fun q => sramOk q.1 q.2.1) then .fault k faultSramRange {}
    else if k.acquiring || k.ownGranuleBusy c a n then .wait
    else if ecc.bad then .fault k faultSramUe {}
    else body ps

/-- LDL: a load from the carrel's own SRAM; the mark bit is zero. -/
def execLdl (c : CarrelId) (rt rb : BitVec 5) (mark : Bool) (size : BitVec 3) (off : BitVec 12) (ecc : Ecc)
    (s : State) : Out :=
  s.instr c (wordM 0x18 rt rb mark size off) (fun k =>
    k.issue 0x18 (!mark && (loadSize size || quadSize size) && sizeRegOk rt size) (rb :: sizeRegs rt size)
      (k.localAccess c (k.regs.localAddr rb off) (sizeBytes size) ecc (fun _ =>
        .next { k with regs :=
          (k.regs.load rt size
            (k.sram.read Memory.blank (k.regs.localAddr rb off) (sizeBytes size))).advance }
          { sramCe := ecc.words })))

/-- STL: a store to the carrel's own SRAM. [log DEDUCED 22] -/
def execStl (c : CarrelId) (rt rb : BitVec 5) (mark : Bool) (size : BitVec 3) (off : BitVec 12) (ecc : Ecc)
    (s : State) : Out :=
  s.instr c (wordM 0x19 rt rb mark size off) (fun k =>
    k.issue 0x19 (!mark && (storeSize size || quadSize size) && sizeRegOk rt size) (rb :: sizeRegs rt size)
      (k.localAccess c (k.regs.localAddr rb off) (sizeBytes size) ecc (fun _ =>
        .next { k with
            sram := k.sram.write Memory.blank (k.regs.localAddr rb off) (k.regs.storeBytes rt size),
            regs := k.regs.advance }
          { sram := [(k.regs.localAddr rb off, sizeBytes size)], sramCe := ecc.words })))

end Sys2Proof.Machine
end

