-- ==== Sys2Proof/Machine/Mgmt.lean ====
section
/-! DEFINITION. Machine/Mgmt.lean: the management bus (R446 to R450) and the public test port (R451, R452). -/

namespace Sys2Proof.Machine

/-! ### Block Reads (Table 19.9) -/

/-- A Block Read: acknowledged with its bytes where the target has a clock. [log DESIGN CHOICE 8] -/
def State.mgmtRead (s : State) (bytes : List Byte) : Out :=
  if s.mgmtClocked then .next { s with mgmt := { s.mgmt with reply := bytes, acked := true } } else .next s.mgmtNack

/-- IDENT: serial, stepping B0, variant, interface version. -/
def execIdent (s : State) : Out :=
  s.mgmtRead (leBytes 8 s.imprint.serial.toNat ++ leBytes 1 0xB0 ++ leBytes 1 (b2n s.imprint.b2) ++ [0x01, 0])
/-- STATUS. -/
def execStatus (s : State) : Out :=
  s.mgmtRead (leBytes 1 s.waferState ++ leBytes 1 s.cur.stage.code ++ leBytes 1 s.cur.cause.code ++
    leBytes 1 (s.pwr.asserted.toNat + 16 * s.pwr.latched.toNat) ++ [s.mgmt.warn] ++ leBytes 1 s.mgmt.result.code ++
    [s.mgmt.seq, 0])
/-- THERMAL: inlet and outlet, signed, and flow, in tenths; the hottest junction and its folio. -/
def execThermal (s : State) : Out :=
  let h := s.hottest
  s.mgmtRead (leBytes 2 (BitVec.ofInt 16 s.mgmt.inlet).toNat ++ leBytes 2 (BitVec.ofInt 16 s.mgmt.outlet).toNat ++
    leBytes 2 s.mgmt.flow ++ leBytes 1 h.1 ++ leBytes 1 h.2.val)
/-- POWER: input voltage in 10 mV, current in 0.1 A, and power in 10 W. [log DEDUCED 134] -/
def execPower (s : State) : Out :=
  s.mgmtRead (leBytes 2 (s.pwr.inputMv / 10) ++ leBytes 2 s.pwr.inputDa ++ leBytes 2 (s.pwr.now.toNat / 10) ++ [0, 0])

/-- CLEAR_WARN: a 1 in bit n clears WARN bit n (R447, R448). [log DEDUCED 134] -/
def execClearWarn (data : Byte) (pecOk : Bool) (s : State) : Out :=
  if !s.mgmtClocked || !pecOk then .next s.mgmtNack
  else
    let m := { s.mgmt with warn := s.mgmt.warn &&& ~~~data, unacked := s.mgmt.unacked &&& ~~~data }
    .next (({ s with mgmt := m } : State).mgmtPost .done)
/-- A read of the Alert Response Address returns 0x4A and deasserts SMBALERT# (R450). [log DEDUCED 134] -/
def execAlertResponseAddress (s : State) : Out :=
  if s.mgmtClocked then
    .next { s with mgmt := { s.mgmt with reply := [0x4A], acked := true, unacked := 0 } }
  else .next s.mgmtNack

/-! ### The test port (R451, R452) -/

/-- The levels of the pins that have boundary cells; the bus idles high. [log DEDUCED 136] -/
def State.pins (s : State) : Boundary :=
  let level (f : Port → Bool) : Byte :=
    allPorts.foldl (fun (m : Byte) (p : PortId) => setBit m p.val (f (s.port p))) 0
  { perst := level (fun x => !x.perst), prsnt := level (fun x => !x.present), scl := true, sda := true,
    smbAlert := s.mgmt.unacked == 0, alert := ~~~s.pwr.asserted }

/-- The ring leaves the device: an alert freeze, and every host link and peer link drops (R452). [log DEDUCED 135] -/
def State.ringOut (s : State) : State :=
  if s.jtag.holds then s
  else
    let t := ({ s with jtag := { s.jtag with holds := true } } : State).assertLines 0
    let t := allPorts.foldl (fun u p => u.portDown p) t
    allLinks.foldl (fun u l =>
      if (u.link l).inService then u.linkFail l
      else if (u.link l).state == .training then u.stageFailed l .failed
      else u) t

/-- The ring returns to the device: the wafer resumes at once, where no alert line holds it (R452).
[log DEDUCED 135] -/
def State.ringBack (s : State) : State :=
  if !s.jtag.holds then s
  else
    let t : State := { s with jtag := { s.jtag with holds := false } }
    if t.pwr.asserted ≠ 0 then t
    else if t.alertWaits then t.leaveAlert
    else { t with clk := { t.clk with alertHeld := false } }

/-- Update-IR of an instruction. -/
def State.tap (s : State) (instr : Byte) (reg : TapReg) : State :=
  let shift : Word := match reg with
    | .idcode => 0x1A5C13F3
    | .bypass => 0
    | .boundary => s.jtag.shift
  { s with jtag := { s.jtag with instr := instr, reg := reg, shift := shift } }

/-- EXTEST: the boundary register drives the pins. -/
def execExtest (s : State) : Out := if s.pwr.powered then .next (s.tap 0x00 .boundary).ringOut else .next s
/-- IDCODE: the identification register, 0x1A5C_13F3. -/
def execIdcode (s : State) : Out := if s.pwr.powered then .next (s.tap 0x01 .idcode).ringBack else .next s
/-- SAMPLE/PRELOAD: the cells take the levels of the pins. [log DEDUCED 136] -/
def execSamplePreload (s : State) : Out :=
  if s.pwr.powered then
    .next (({ s with jtag := { s.jtag with cells := s.pins } } : State).tap 0x02 .boundary).ringBack
  else .next s
/-- HIGHZ: every cell pin is released. -/
def execHighz (s : State) : Out := if s.pwr.powered then .next (s.tap 0x03 .bypass).ringOut else .next s
/-- BYPASS. -/
def execBypass (s : State) : Out := if s.pwr.powered then .next (s.tap 0xFF .bypass).ringBack else .next s
/-- Test-Logic-Reset selects IDCODE, and the ring returns to the device. -/
def execTestLogicReset (s : State) : Out := if s.pwr.powered then .next (s.tap 0x01 .idcode).ringBack else .next s

end Sys2Proof.Machine
end

