-- ==== Sys2Proof/Machine/Pins.lean ====
section
/-! DEFINITION. Machine/Pins.lean: what the pins of the binding do (R443, Table 19.6; R452): read off the state, and read by
no command. -/

namespace Sys2Proof.Machine

/-- What a pin group does (Table 19.6). -/
inductive PinState where
  /-- Driven, or received, as the unit behind it runs. -/
  | normal
  | notDriven
  | electricalIdle
  | highImpedance
  | noTermination
  | terminated
  /-- PERST# by its pull-down, PRSNT# by its pull-up (Table 19.4). -/
  | pulled
  /-- It draws no current from the host. -/
  | noCurrent
  /-- Frozen codewords. -/
  | frozen
deriving DecidableEq, Repr

/-- The transmitters of a host connector. -/
def State.hostTx (s : State) (p : PortId) : PinState :=
  if !s.pwr.powered then .notDriven else if (s.port p).perst then .electricalIdle else .normal
/-- The receivers of a host connector: no termination, so that no receiver is detected, while PERST# is asserted. -/
def State.hostRx (s : State) (p : PortId) : PinState :=
  if !s.pwr.powered || (s.port p).perst then .noTermination else .normal
/-- REFCLK, which the host terminates (Table 19.4). -/
def State.refclkPin (_ : State) : PinState := .highImpedance
/-- PERST# and PRSNT#. -/
def State.resetPins (s : State) : PinState := if s.pwr.powered then .pulled else .noCurrent
/-- A link is off, waits for its training to start, or is held off by DISABLE. -/
def Link.idleOff (k : Link) : Bool :=
  k.disable || k.state == .off || k.state == .failed || k.state == .miswired
/-- The transmitters of a peer link. -/
def State.peerTx (s : State) (l : LinkId) : PinState :=
  if (s.link l).idleOff then .highImpedance
  else match s.sendsKind l with
    | none => .highImpedance
    | some 3 => .frozen
    | some _ => .normal
/-- The receivers of a peer link. -/
def State.peerRx (s : State) (l : LinkId) : PinState :=
  if !s.pwr.powered || (s.link l).idleOff then .noTermination else .terminated
/-- A boundary cell's pin: HIGHZ releases it (Table 20.1). -/
def State.cellPin (s : State) (x : PinState) : PinState :=
  if !s.pwr.powered || (s.jtag.holds && s.jtag.instr == 0x03) then .highImpedance else x
/-- SMBus and SMBALERT#, while the management target has a clock (R447). -/
def State.smbPins (s : State) : PinState := s.cellPin (if s.mgmtClocked then .normal else .highImpedance)
/-- ALERT0# to ALERT3#. -/
def State.alertPins (s : State) : PinState := s.cellPin .normal
/-- The test port. -/
def State.jtagPins (s : State) : PinState := if s.pwr.powered then .normal else .highImpedance

end Sys2Proof.Machine
end

