-- ==== Sys2Proof/Machine/Router.lean ====
section
/-! DEFINITION. Machine/Router.lean: a packet at a router input and a credit-sync word (chapter 9). -/

namespace Sys2Proof.Machine

/-- A router input is there: its folio is not blocked, and an attach port only where something attaches (R210, R211). -/
def State.inputThere (s : State) (a : AlcoveId) (port : RouterPort) : Bool :=
  s.fabricRuns && !s.isBlocked a.folio && (decide (port.val < 8) || s.attached a)

/-- PACKET_HOP: a packet arrives at an input of a router; its words, and those without a flit before it, are checked
(R213), then type, SYS and ticket, and it is forwarded or discarded. After an uncorrectable word both routers of the link
send their free counts. A Dark folio is woken first (R77); a packet waits on its wire for room (R216).
[log DEDUCED 37; DESIGN CHOICE 36, 175] -/
def execPacketHop (a : AlcoveId) (port : RouterPort) (p : Packet) (chk : LinkChecks) (s : State) : Out :=
  if !s.inputThere a port then .next s
  else if !s.folioRouts a.folio then .next (s.wakeToward a.folio)
  else match s.nextPacket (.router a port) p with
    | none => .next s
    | some w =>
      if !(s.router a).room port w.pkt then .next s
      else
        let own := chk.flits.take w.pkt.flits
        let t := (s.takeOff (.router a port) p).countWords a.folio (chk.idle ++ own)
        let t := if own.contains .double then t.discardAt a port w.pkt .hdr else t.arrive a port w.pkt w.via
        .next (if (chk.idle ++ own).contains .double then t.exchangeSync a port else t)

/-- SYNC_WORD: a credit-sync word under way to an input arrives. The credits of the link are set from its counts; an
uncorrectable one tells nothing, and is sent again (R213). [log DEDUCED 38] -/
def execSyncWord (a : AlcoveId) (port : RouterPort) (chk : LinkCheck) (s : State) : Out :=
  if !s.inputThere a port || !s.folioRouts a.folio then .next s
  else match s.syncs.find? (fun w => w.at_ == a && w.port == port) with
    | none => .next s
    | some w =>
      let t := ({ s with syncs := s.syncs.erase w } : State).countWords a.folio [chk]
      if chk = .double then .next (t.exchangeSync a port)
      else
        .next ((t.modRouter a (fun r =>
          [0, 1, 2, 3].foldl (fun r k => r.setFree port k (natBits (linkBody w.word).toNat (4 * k) 4)) r)).pumpFrom [a])

end Sys2Proof.Machine
end

