-- ==== Sys2Proof/Machine/Float.lean ====
section
/-! DEFINITION. Machine/Float.lean: the floating point of numeric profile 0x0001 (Table 1.2): fp32 with round to
nearest, ties to even, subnormal inputs and results flushed to zero keeping the sign, every NaN result 0x7FC0_0000. -/

namespace Sys2Proof

/-- A value of fp32 once subnormals are flushed: a finite value is (−1)^neg × m × 2^e with m > 0. -/
inductive FpVal where
  | nan
  | inf (neg : Bool)
  | zero (neg : Bool)
  | fin (neg : Bool) (m : Nat) (e : Int)
deriving DecidableEq, Repr

/-- The NaN that every NaN result is written as (Table 1.2). -/
def fpNaN : Word := 0x7FC00000

/-- Read an fp32 word, flushing a subnormal to zero (Table 1.2). -/
def fpDecode (w : Word) : FpVal :=
  let neg := w.getLsbD 31
  let ex := natBits w.toNat 23 8
  let fr := natBits w.toNat 0 23
  if ex = 255 then (if fr = 0 then .inf neg else .nan)
  else if ex = 0 then .zero neg
  else .fin neg (2 ^ 23 + fr) ((ex : Int) - 150)

/-- An fp32 word from its fields. -/
def fpPack (neg : Bool) (ex fr : Nat) : Word := BitVec.ofNat 32 (b2n neg * 2 ^ 31 + ex * 2 ^ 23 + fr)

/-- m / 2^k rounded to nearest, ties to even. -/
def roundEven (m k : Nat) : Nat :=
  let q := m / 2 ^ k
  let r := m % 2 ^ k
  if 2 * r > 2 ^ k then q + 1
  else if 2 * r = 2 ^ k then (if q % 2 = 1 then q + 1 else q)
  else q

/-- The fp32 word of the exact value (−1)^neg × m × 2^e: rounded, flushed when the rounded result is subnormal,
infinite past the largest finite value. [log DEDUCED 19] -/
def fpRound (neg : Bool) (m : Nat) (e : Int) : Word :=
  if m = 0 then fpPack neg 0 0
  else
    let top : Int := (Nat.log2 m : Int) + e
    let q : Int := (if top < -126 then -126 else top) - 23
    let k : Int := q - e
    let r := if k ≤ 0 then m * 2 ^ (-k).toNat else roundEven m k.toNat
    let (r, q) := if r = 2 ^ 24 then (2 ^ 23, q + 1) else (r, q)
    if r < 2 ^ 23 then fpPack neg 0 0
    else
      let ex := q + 150
      if ex ≥ 255 then fpPack neg 255 0 else fpPack neg ex.toNat (r - 2 ^ 23)

/-- The fp32 word of a value (a flushed zero keeps its sign). -/
def fpEncode (v : FpVal) : Word :=
  match v with
  | .nan => fpNaN
  | .inf n => fpPack n 255 0
  | .zero n => fpPack n 0 0
  | .fin n m e => fpRound n m e

/-- The value's negation. -/
def FpVal.negate (v : FpVal) : FpVal :=
  match v with
  | .nan => .nan
  | .inf n => .inf (!n)
  | .zero n => .zero (!n)
  | .fin n m e => .fin (!n) m e

/-- (−1)^neg × m as an integer. -/
def signedNat (neg : Bool) (m : Nat) : Int := if neg then -(m : Int) else m

/-- Sum of two values, as an fp32 word. An exact zero sum of opposite signs is +0. -/
def fpSum (a b : FpVal) : Word :=
  match a, b with
  | .nan, _ => fpNaN
  | _, .nan => fpNaN
  | .inf x, .inf y => if x = y then fpPack x 255 0 else fpNaN
  | .inf x, _ => fpPack x 255 0
  | _, .inf y => fpPack y 255 0
  | .zero x, .zero y => fpPack (x && y) 0 0
  | .zero _, .fin n m e => fpRound n m e
  | .fin n m e, .zero _ => fpRound n m e
  | .fin n1 m1 e1, .fin n2 m2 e2 =>
    let e := min e1 e2
    let s := signedNat n1 (m1 * 2 ^ (e1 - e).toNat) + signedNat n2 (m2 * 2 ^ (e2 - e).toNat)
    if s = 0 then fpPack false 0 0 else fpRound (decide (s < 0)) s.natAbs e

/-- Product of two values, as an fp32 word. -/
def fpProduct (a b : FpVal) : Word :=
  match a, b with
  | .nan, _ => fpNaN
  | _, .nan => fpNaN
  | .inf _, .zero _ => fpNaN
  | .zero _, .inf _ => fpNaN
  | .inf x, .inf y => fpPack (x != y) 255 0
  | .inf x, .fin n _ _ => fpPack (x != n) 255 0
  | .fin n _ _, .inf y => fpPack (n != y) 255 0
  | .zero x, .zero y => fpPack (x != y) 0 0
  | .zero x, .fin n _ _ => fpPack (x != n) 0 0
  | .fin n _ _, .zero y => fpPack (n != y) 0 0
  | .fin n1 m1 e1, .fin n2 m2 e2 => fpRound (n1 != n2) (m1 * m2) (e1 + e2)

/-- FADD. -/
def fpAdd (a b : Word) : Word := fpSum (fpDecode a) (fpDecode b)
/-- FSUB. -/
def fpSub (a b : Word) : Word := fpSum (fpDecode a) (fpDecode b).negate
/-- FMUL. -/
def fpMul (a b : Word) : Word := fpProduct (fpDecode a) (fpDecode b)

/-- The order of two non-NaN values: the exact comparison of a − b with zero. -/
def fpCompare (a b : FpVal) : Option Ordering :=
  let rank : FpVal → Option (Nat ⊕ (Int × Int)) := fun v =>
    match v with
    | .nan => none
    | .inf true => some (.inl 0)
    | .inf false => some (.inl 1)
    | .zero _ => some (.inr (0, 0))
    | .fin n m e => some (.inr (signedNat n m, e))
  match rank a, rank b with
  | none, _ => none
  | _, none => none
  | some (.inl x), some (.inl y) => some (compare x y)
  | some (.inl x), some (.inr _) => some (if x = 0 then .lt else .gt)
  | some (.inr _), some (.inl y) => some (if y = 0 then .gt else .lt)
  | some (.inr (m1, e1)), some (.inr (m2, e2)) =>
    let e := min e1 e2
    some (compare (m1 * 2 ^ (e1 - e).toNat) (m2 * 2 ^ (e2 - e).toNat))

/-- FCMPLT: false on NaN, −0 equals +0 (Table 7.3). -/
def fpLt (a b : Word) : Bool := fpCompare (fpDecode a) (fpDecode b) == some .lt
/-- FCMPLE. -/
def fpLe (a b : Word) : Bool :=
  match fpCompare (fpDecode a) (fpDecode b) with
  | some .gt => false
  | some _ => true
  | none => false

/-- FCVTIF: int32 to fp32. -/
def fpOfInt (i : Int) : Word := if i = 0 then 0 else fpRound (decide (i < 0)) i.natAbs 0

/-- Clamp an integer to [lo, hi]. -/
def clampInt (lo hi v : Int) : Int := if v < lo then lo else if hi < v then hi else v

/-- FCVTFI: fp32 to int32, ties to even, saturating; NaN gives 0. -/
def fpToInt (w : Word) : Word :=
  match fpDecode w with
  | .nan => 0
  | .zero _ => 0
  | .inf true => 0x80000000
  | .inf false => 0x7FFFFFFF
  | .fin n m e =>
    let mag := if e ≥ 0 then m * 2 ^ e.toNat else roundEven m (-e).toNat
    BitVec.ofInt 32 (clampInt (-2147483648) 2147483647 (signedNat n mag))

/-- FTOBF: fp32 to bf16, ties to even; NaN gives 0x7FC0; a subnormal is flushed. -/
def fpToBf (w : Word) : Half :=
  match fpDecode w with
  | .nan => 0x7FC0
  | .zero n => BitVec.ofNat 16 (b2n n * 2 ^ 15)
  | _ => BitVec.ofNat 16 (roundEven w.toNat 16)

/-- bf16 as fp32: its bits are the high half. -/
def bfToFp (h : Half) : Word := BitVec.ofNat 32 (h.toNat * 65536)

end Sys2Proof
end

