-- ==== Sys2Proof/Machine/Scalar.lean ====
section
/-! DEFINITION. Machine/Scalar.lean: the scalar and control instructions of a carrel (Tables 7.2 and 7.3, R166,
R167). -/

namespace Sys2Proof.Machine

/-- ADD: 32-bit, wraps. -/
def execAdd (c : CarrelId) (rd rs1 rs2 : BitVec 5) (s : State) : Out := s.alu c 0x00 0 true rd rs1 rs2 (fun a b => a + b)
/-- SUB. -/
def execSub (c : CarrelId) (rd rs1 rs2 : BitVec 5) (s : State) : Out := s.alu c 0x00 1 true rd rs1 rs2 (fun a b => a - b)
/-- AND. -/
def execAnd (c : CarrelId) (rd rs1 rs2 : BitVec 5) (s : State) : Out := s.alu c 0x00 2 true rd rs1 rs2 (fun a b => a &&& b)
/-- OR. -/
def execOr (c : CarrelId) (rd rs1 rs2 : BitVec 5) (s : State) : Out := s.alu c 0x00 3 true rd rs1 rs2 (fun a b => a ||| b)
/-- XOR. -/
def execXor (c : CarrelId) (rd rs1 rs2 : BitVec 5) (s : State) : Out := s.alu c 0x00 4 true rd rs1 rs2 (fun a b => a ^^^ b)
/-- SLL: by g[rs2][4:0]. -/
def execSll (c : CarrelId) (rd rs1 rs2 : BitVec 5) (s : State) : Out :=
  s.alu c 0x00 5 true rd rs1 rs2 (fun a b => a <<< (b.toNat % 32))
/-- SRL: zero fill. -/
def execSrl (c : CarrelId) (rd rs1 rs2 : BitVec 5) (s : State) : Out :=
  s.alu c 0x00 6 true rd rs1 rs2 (fun a b => a >>> (b.toNat % 32))
/-- SRA: sign fill. -/
def execSra (c : CarrelId) (rd rs1 rs2 : BitVec 5) (s : State) : Out :=
  s.alu c 0x00 7 true rd rs1 rs2 (fun a b => a.sshiftRight (b.toNat % 32))
/-- MUL: the low 32 bits of the product. -/
def execMul (c : CarrelId) (rd rs1 rs2 : BitVec 5) (s : State) : Out := s.alu c 0x00 8 true rd rs1 rs2 (fun a b => a * b)
/-- SEL: p[fn[10:8]] ? g[rs1] : g[rs2]. -/
def execSel (c : CarrelId) (rd rs1 rs2 : BitVec 5) (p : BitVec 3) (s : State) : Out :=
  s.instr c (wordA 0x00 rd rs1 rs2 (p ++ (0x09 : BitVec 8))) (fun k => k.issue 0x00 true [rd, rs1, rs2]
    (k.retire (fun r => r.setG rd (if r.getP (p.setWidth 5) then r.getG rs1 else r.getG rs2))))
/-- FADD. -/
def execFadd (c : CarrelId) (rd rs1 rs2 : BitVec 5) (s : State) : Out := s.alu c 0x01 0 true rd rs1 rs2 fpAdd
/-- FSUB. -/
def execFsub (c : CarrelId) (rd rs1 rs2 : BitVec 5) (s : State) : Out := s.alu c 0x01 1 true rd rs1 rs2 fpSub
/-- FMUL. -/
def execFmul (c : CarrelId) (rd rs1 rs2 : BitVec 5) (s : State) : Out := s.alu c 0x01 2 true rd rs1 rs2 fpMul
/-- FCVTIF: int32 to fp32; rs2 is zero. -/
def execFcvtif (c : CarrelId) (rd rs1 rs2 : BitVec 5) (s : State) : Out :=
  s.alu c 0x01 3 (rs2 == 0) rd rs1 rs2 (fun a _ => fpOfInt a.toInt)
/-- FCVTFI: fp32 to int32, saturating, NaN gives 0; rs2 is zero. -/
def execFcvtfi (c : CarrelId) (rd rs1 rs2 : BitVec 5) (s : State) : Out :=
  s.alu c 0x01 4 (rs2 == 0) rd rs1 rs2 (fun a _ => fpToInt a)
/-- FTOBF: fp32 to bf16 in bits [15:0]; rs2 is zero. -/
def execFtobf (c : CarrelId) (rd rs1 rs2 : BitVec 5) (s : State) : Out :=
  s.alu c 0x01 5 (rs2 == 0) rd rs1 rs2 (fun a _ => (fpToBf a).setWidth 32)
/-- CMPEQ. -/
def execCmpeq (c : CarrelId) (pd rs1 rs2 : BitVec 5) (s : State) : Out := s.compare c 0 pd rs1 rs2 (fun a b => a == b)
/-- CMPLT: signed. -/
def execCmplt (c : CarrelId) (pd rs1 rs2 : BitVec 5) (s : State) : Out := s.compare c 1 pd rs1 rs2 (fun a b => a.slt b)
/-- CMPLTU: unsigned. -/
def execCmpltu (c : CarrelId) (pd rs1 rs2 : BitVec 5) (s : State) : Out := s.compare c 2 pd rs1 rs2 (fun a b => a.ult b)
/-- FCMPLT: false if either operand is NaN; −0 equals +0. -/
def execFcmplt (c : CarrelId) (pd rs1 rs2 : BitVec 5) (s : State) : Out := s.compare c 3 pd rs1 rs2 fpLt
/-- FCMPLE. -/
def execFcmple (c : CarrelId) (pd rs1 rs2 : BitVec 5) (s : State) : Out := s.compare c 4 pd rs1 rs2 fpLe
/-- PAND. -/
def execPand (c : CarrelId) (pd ps1 ps2 : BitVec 5) (s : State) : Out := s.predicate c 5 true pd ps1 ps2 (fun a b => a && b)
/-- POR. -/
def execPor (c : CarrelId) (pd ps1 ps2 : BitVec 5) (s : State) : Out := s.predicate c 6 true pd ps1 ps2 (fun a b => a || b)
/-- PNOT: rs2 is zero. -/
def execPnot (c : CarrelId) (pd ps1 ps2 : BitVec 5) (s : State) : Out :=
  s.predicate c 7 (ps2 == 0) pd ps1 ps2 (fun a _ => !a)
/-- ADDI: sign-extended immediate. -/
def execAddi (c : CarrelId) (rd rs1 : BitVec 5) (imm : BitVec 16) (s : State) : Out :=
  s.alui c 0x04 true rd rs1 imm (fun a i => a + i.signExtend 32)
/-- ANDI: zero-extended immediate. -/
def execAndi (c : CarrelId) (rd rs1 : BitVec 5) (imm : BitVec 16) (s : State) : Out :=
  s.alui c 0x05 true rd rs1 imm (fun a i => a &&& i.setWidth 32)
/-- ORI: zero-extended immediate. -/
def execOri (c : CarrelId) (rd rs1 : BitVec 5) (imm : BitVec 16) (s : State) : Out :=
  s.alui c 0x06 true rd rs1 imm (fun a i => a ||| i.setWidth 32)
/-- SLLI: imm16[15:5] is zero. -/
def execSlli (c : CarrelId) (rd rs1 : BitVec 5) (imm : BitVec 16) (s : State) : Out :=
  s.alui c 0x07 (decide (imm.toNat < 32)) rd rs1 imm (fun a i => a <<< i.toNat)
/-- SRLI. -/
def execSrli (c : CarrelId) (rd rs1 : BitVec 5) (imm : BitVec 16) (s : State) : Out :=
  s.alui c 0x08 (decide (imm.toNat < 32)) rd rs1 imm (fun a i => a >>> i.toNat)
/-- SRAI. -/
def execSrai (c : CarrelId) (rd rs1 : BitVec 5) (imm : BitVec 16) (s : State) : Out :=
  s.alui c 0x09 (decide (imm.toNat < 32)) rd rs1 imm (fun a i => a.sshiftRight i.toNat)
/-- LUI: imm21[15:0] × 65,536; imm21[20:16] is zero. -/
def execLui (c : CarrelId) (rd : BitVec 5) (imm : BitVec 21) (s : State) : Out :=
  s.instr c (wordU 0x0A rd imm) (fun k => k.issue 0x0A (decide (imm.toNat < 65536)) [rd]
    (k.retire (fun r => r.setG rd (BitVec.ofNat 32 (imm.toNat * 65536)))))

/-- BEQ. -/
def execBeq (c : CarrelId) (rs1 rs2 : BitVec 5) (off : BitVec 16) (s : State) : Out :=
  s.branch c 0x10 rs1 rs2 true [rs1, rs2] (fun r => r.getG rs1 == r.getG rs2) off
/-- BNE. -/
def execBne (c : CarrelId) (rs1 rs2 : BitVec 5) (off : BitVec 16) (s : State) : Out :=
  s.branch c 0x11 rs1 rs2 true [rs1, rs2] (fun r => r.getG rs1 != r.getG rs2) off
/-- BP: tests the predicate of bits [25:21]; bits [20:16] are zero. -/
def execBp (c : CarrelId) (ps rs2 : BitVec 5) (off : BitVec 16) (s : State) : Out :=
  s.branch c 0x12 ps rs2 (rs2 == 0 && predOk ps) [] (fun r => r.getP ps) off
/-- BNP. -/
def execBnp (c : CarrelId) (ps rs2 : BitVec 5) (off : BitVec 16) (s : State) : Out :=
  s.branch c 0x13 ps rs2 (rs2 == 0 && predOk ps) [] (fun r => !r.getP ps) off
/-- JAL: g[rd] ← pc + 4, pc ← pc + 4 × imm21. -/
def execJal (c : CarrelId) (rd : BitVec 5) (imm : BitVec 21) (s : State) : Out :=
  s.instr c (wordU 0x14 rd imm) (fun k => k.issue 0x14 true [rd]
    (.next { k with regs :=
      { k.regs.setG rd (k.regs.pc + 4) with pc := k.regs.pc + 4 * imm.signExtend 32 } } {}))
/-- JALR: g[rd] ← pc + 4, pc ← g[rs1] + imm16; a target that is not a multiple of 4 raises MISALIGNED in both
alignment modes. -/
def execJalr (c : CarrelId) (rd rs1 : BitVec 5) (imm : BitVec 16) (s : State) : Out :=
  s.instr c (wordI 0x15 rd rs1 imm) (fun k => k.issue 0x15 true [rd, rs1]
    (let target := k.regs.getG rs1 + imm.signExtend 32
     if target.toNat % 4 != 0 then .fault k faultMisaligned {}
     else .next { k with regs := { k.regs.setG rd (k.regs.pc + 4) with pc := target } } {}))

end Sys2Proof.Machine
end

