-- ==== Sys2Proof/Machine/Shared.lean ====
section
/-! DEFINITION. Machine/Shared.lean: the shared-space instructions (R171 to R174, R230 to R245). -/

namespace Sys2Proof.Machine

/-- One piece of a shared access: its call number, length and offset in the access. -/
abbrev Piece := BitVec 48 × Nat × Nat

/-- A piece lies in the carrel's own stacks cell, which it reaches through its own port (R172). -/
def State.ownCell (s : State) (c : CarrelId) (q : Piece) : Bool :=
  match s.locate q.1 with
  | some (.stackMem c' _) => c' == c
  | _ => false

/-- The request packet of a piece (R214, R230). -/
def State.request (s : State) (c : CarrelId) (b : BayId) (type : BitVec 4) (size : BitVec 3) (mark : Bool)
    (whole : Nat) (q : Piece) (tag : BitVec 10) (data : List Byte) : Packet :=
  let l := (s.locate q.1).getD (.stackMem c 0)
  let dw := match l with
    | .sram ws _ _ => (s.wslotWafer b ws).getD s.ownWafer
    | _ => s.ownWafer
  let (a, port) := s.homePort l
  let fs := if data.isEmpty then [] else toFlits (flitsFor data.length) data
  Packet.sealed
    { Packet.blank with
      type := type, ticket := (s.carrel c).ticket, tag := tag, len := BitVec.ofNat 3 fs.length,
      dw := dw, dax := BitVec.ofNat 8 a.ax.val, day := BitVec.ofNat 8 a.ay.val, dport := BitVec.ofNat 5 port,
      sw := s.ownWafer, sax := BitVec.ofNat 8 c.alcove.ax.val, say := BitVec.ofNat 8 c.alcove.ay.val,
      sport := BitVec.ofNat 5 c.dport, call := q.1, size := size, mark := mark,
      span := if q.2.1 = whole then 0 else BitVec.ofNat 7 q.2.1, data := fs }

/-- The requests of all pieces, tags rising from the carrel's next. -/
def State.requests (s : State) (c : CarrelId) (type : BitVec 4) (size : BitVec 3) (mark : Bool) (whole : Nat)
    (ps : List Piece) (data : List Byte) : List Packet :=
  let b := ((s.carrel c).bay).getD 0
  (List.range ps.length).zip ps |>.map (fun iq =>
    s.request c b type size mark whole iq.2 ((s.carrel c).nextTag + BitVec.ofNat 10 iq.1)
      ((data.drop iq.2.2.2).take iq.2.2.1))

/-- A piece under its home's own name: WSLOT 0 where the wafer map's entry names this wafer (R229, R236). -/
def State.ownPiece (s : State) (c : CarrelId) (q : Piece) : Piece :=
  let v := q.1.toNat
  if callSpace q.1 = 0 ∧ s.wslotWafer (((s.carrel c).bay).getD 0) (natBits v 40 4) = some s.ownWafer then
    (BitVec.ofNat 48 (v % 2 ^ 40), q.2)
  else q
/-- The pieces as the carrel awaits their replies. [log DEDUCED 15] -/
def awaiting (next : BitVec 10) (ps : List Piece) : List LoadPiece :=
  ((List.range ps.length).zip ps).map (fun iq =>
    ⟨next + BitVec.ofNat 10 iq.1, iq.2.2.2, iq.2.2.1, iq.2.1.toNat / 64⟩)

/-- The checks of a shared access in the order of R188: MISALIGNED, CALL_NUMBER, PURITY by call number. -/
def State.sharedAccess (s : State) (c : CarrelId) (k : Carrel) (rb : BitVec 5) (call : BitVec 48) (n : Nat)
    (write exact_ : Bool) (body : List Piece → CoreResult) : CoreResult :=
  match callPieces (k.regs.st.piecewise && !exact_) call n with
  | none => .fault k faultMisaligned {}
  | some ps =>
    if k.regs.callHigh rb != 0 then .fault k faultCallNumber {}
    else if ps.any (fun q => s.window c q.1 q.2.1 write == .outside) then .fault k faultCallNumber {}
    else if !write && k.regs.st.pure_ && ps.any (fun q => s.window c q.1 q.2.1 write == .entry) then
      .fault k faultPurity {}
    else body ps

/-- A load: direct in the carrel's own cell, otherwise by READ or RESV packets (R172, R173, R243). One in the own cell is
performed at issue, in program order, of the orders that R237 allows. [log DESIGN CHOICE 171] -/
def State.sharedLoad (s : State) (c : CarrelId) (op : BitVec 6) (legal : Bool) (rt rb : BitVec 5) (mark : Bool)
    (size : BitVec 3) (off : BitVec 12) (ecc : Ecc) (resv : Bool) : Out :=
  s.instr c (wordM op rt rb mark size off) (fun k =>
    let n := sizeBytes size
    let call := k.regs.callNumber rb off
    k.issue op (legal && pairOk rb && sizeRegOk rt size) (rb :: (rb + 1) :: sizeRegs rt size)
      (s.sharedAccess c k rb call n false resv (fun ps =>
        let held : Option Reservation := if resv then some ⟨call.toNat / 64, size⟩ else none
        if k.acquiring || decide (8 < k.loadCount + ps.length) then .wait
        else if ps.all (s.ownCell c) then
          s.ownTurn c k
            (if ecc.atBond.bad then .fault k faultStacksUe { bond := ecc.retries }
             else
              let o := natBits call.toNat 0 23
              .next { k with regs := (k.regs.load rt size (k.stackMem.read Memory.blank o n)).advance, reserved := held }
                { stacksCe := ecc.words, bond := ecc.retries, home := if resv then some (.reserve (o / 64)) else none })
        else
          .next { k with
              regs := k.regs.advance, reserved := held, nextTag := k.nextTag + BitVec.ofNat 10 ps.length,
              loads := k.loads ++ [{ pieces := awaiting k.nextTag (ps.map (s.ownPiece c)), buf := List.replicate n 0, reg := rt,
                                     size := size, isCond := false, acquire := mark, space := callSpace call }] }
            { sent := s.requests c (if resv then 3 else 1) size mark n ps [] })))

/-- A store: direct in the carrel's own cell, otherwise by WRITE packets; a release mark holds it until every earlier
access is performed (R173, R238). One in the own cell is performed at issue, in program order, of the orders that R237
allows. [log DESIGN CHOICE 171] -/
def State.sharedStore (s : State) (c : CarrelId) (op : BitVec 6) (legal : Bool) (rt rb : BitVec 5) (mark : Bool)
    (size : BitVec 3) (off : BitVec 12) (ecc : Ecc) : Out :=
  s.instr c (wordM op rt rb mark size off) (fun k =>
    let n := sizeBytes size
    let call := k.regs.callNumber rb off
    k.issue op (legal && pairOk rb && sizeRegOk rt size) (rb :: (rb + 1) :: sizeRegs rt size)
      (s.sharedAccess c k rb call n true false (fun ps =>
        let bs := k.regs.storeBytes rt size
        if k.acquiring || decide (16 < k.stores.length + ps.length) ||
            (mark && (!k.loads.isEmpty || !k.stores.isEmpty)) then .wait
        else if ps.all (s.ownCell c) then
          s.ownTurn c k
            (if ecc.atBond.bad then .fault k faultStacksUe { bond := ecc.retries }
             else
              let o := natBits call.toNat 0 23
              .next { k with regs := k.regs.advance, stackMem := k.stackMem.write Memory.blank o bs, reserved := none }
                { stackMem := [(o, n)], stacksCe := ecc.words, bond := ecc.retries })
        else
          .next { k with
              regs := k.regs.advance, reserved := none, nextTag := k.nextTag + BitVec.ofNat 10 ps.length,
              stores := k.stores ++ (awaiting k.nextTag (ps.map (s.ownPiece c))).map (fun q => ⟨q.tag, callSpace call, q.granule⟩) }
            { sent := s.requests c 2 size mark n ps bs })))

/-- LDS: sizes 0b000 to 0b101. -/
def execLds (c : CarrelId) (rt rb : BitVec 5) (mark : Bool) (size : BitVec 3) (off : BitVec 12) (ecc : Ecc)
    (s : State) : Out := s.sharedLoad c 0x1A (loadSize size) rt rb mark size off ecc false
/-- STS: sizes 0b000 to 0b011; the zero-extending ones are ILLEGAL in a store. -/
def execSts (c : CarrelId) (rt rb : BitVec 5) (mark : Bool) (size : BitVec 3) (off : BitVec 12) (ecc : Ecc)
    (s : State) : Out := s.sharedStore c 0x1B (storeSize size) rt rb mark size off ecc
/-- LD2: 16 bytes only. -/
def execLd2 (c : CarrelId) (rt rb : BitVec 5) (mark : Bool) (size : BitVec 3) (off : BitVec 12) (ecc : Ecc)
    (s : State) : Out := s.sharedLoad c 0x1C (quadSize size) rt rb mark size off ecc false
/-- ST2: 16 bytes only. -/
def execSt2 (c : CarrelId) (rt rb : BitVec 5) (mark : Bool) (size : BitVec 3) (off : BitVec 12) (ecc : Ecc)
    (s : State) : Out := s.sharedStore c 0x1D (quadSize size) rt rb mark size off ecc
/-- LDRES: 4 or 8 bytes; records the reservation (R243). -/
def execLdres (c : CarrelId) (rt rb : BitVec 5) (mark : Bool) (size : BitVec 3) (off : BitVec 12) (ecc : Ecc)
    (s : State) : Out := s.sharedLoad c 0x1E (size == 2 || size == 3) rt rb mark size off ecc true

/-- The size code of a STCOND: fn[1:0] is 0b10 or 0b11 (Table 7.5). -/
def condSize (fn : BitVec 11) : BitVec 3 := BitVec.ofNat 3 (fn.toNat % 4)
/-- The release mark of a STCOND. -/
def condMark (fn : BitVec 11) : Bool := fn.getLsbD 2

/-- STCOND: Table 10.5. Rows 1 and 2 fail at the carrel and send nothing; the rest is the home's, its own cell's too. An
uncorrectable error of the location is met where the store is performed, as at a remote home: rows 3 and 4 fail without
it. [log DEDUCED 23, 28] -/
def execStcond (c : CarrelId) (rd rs1 rs2 : BitVec 5) (fn : BitVec 11) (ecc : Ecc) (s : State) : Out :=
  s.instr c (wordA 0x1F rd rs1 rs2 fn) (fun k =>
    let size := condSize fn
    let n := sizeBytes size
    let call := k.regs.callNumber rs1 0
    k.issue 0x1F (decide (2 ≤ fn.toNat % 4) && decide (fn.toNat < 8) && pairOk rs1 && sizeRegOk rs2 size)
      (rd :: rs1 :: (rs1 + 1) :: sizeRegs rs2 size)
      (k.pureGate (s.sharedAccess c k rs1 call n true true (fun ps =>
        let bs := k.regs.storeBytes rs2 size
        let granule := call.toNat / 64
        if k.acquiring || decide (8 < k.loadCount + 1) ||
            (condMark fn && (!k.loads.isEmpty || !k.stores.isEmpty)) then .wait
        else if k.reserved != some ⟨granule, size⟩ then k.retire (fun r => r.setG rd 1)
        else if ps.all (s.ownCell c) then
          let o := natBits call.toNat 0 23
          let l : Location := .stackMem c o
          s.ownTurn c k
            (if (s.home l.home).condOk l.granule (c.requester s.ownWafer) k.ticket then
              (if ecc.atBond.bad then .fault k faultStacksUe { bond := ecc.retries }
               else
                .next { k with regs := (k.regs.setG rd 0).advance, reserved := none,
                               stackMem := k.stackMem.write Memory.blank o bs }
                  { stackMem := [(o, n)], stacksCe := ecc.words, bond := ecc.retries, home := some (.leave l.granule) })
             else
              .next { k with regs := (k.regs.setG rd 1).advance, reserved := none }
                { home := some (.enqueue l.granule) })
        else
          .next { k with
              regs := k.regs.advance, reserved := none, nextTag := k.nextTag + 1,
              loads := k.loads ++ [{ pieces := awaiting k.nextTag (ps.map (s.ownPiece c)), buf := [], reg := rd, size := size,
                                     isCond := true, acquire := false, space := callSpace call }] }
            { sent := s.requests c 4 size (condMark fn) n ps bs }))))

/-- FENCE: issues once every earlier access of the carrel has completed (R172, R239). -/
def execFence (c : CarrelId) (fields : BitVec 26) (s : State) : Out :=
  s.instr c ((0x20 : BitVec 6) ++ fields) (fun k => k.issue 0x20 (fields == 0) []
    (if k.loads.isEmpty && k.stores.isEmpty then k.retire id else .wait))

end Sys2Proof.Machine
end

