-- ==== Sys2Proof/Machine/System.lean ====
section
/-! DEFINITION. Machine/System.lean: BEATWAIT, BEATRD, the system instructions, the instruction fetch and the
sentinel step (R162 to R168, R175, R176, R186, R187, R93). -/

namespace Sys2Proof.Machine

/-- BEATWAIT n: waits for beat n; late, it is an overrun (R175). -/
def execBeatwait (c : CarrelId) (rd rs1 rs2 : BitVec 5) (fn : BitVec 11) (s : State) : Out :=
  s.instr c (wordA 0x24 rd rs1 rs2 fn) (fun k => k.issue 0x24 (rd == 0 && rs2 == 0 && fn == 0) [rs1]
    (let n := (k.regs.getG rs1).toNat
     if k.beat < n then .wait
     else if k.beat = n then k.retire id
     else .next k.overran {}))

/-- BEATRD: the low 32 bits of the beat count (R176). -/
def execBeatrd (c : CarrelId) (rd rs1 rs2 : BitVec 5) (fn : BitVec 11) (s : State) : Out :=
  s.sysRead c (wordA 0x25 rd rs1 rs2 fn) (rs1 == 0 && rs2 == 0 && fn == 0) 0x25 rd (fun k => BitVec.ofNat 32 k.beat)

/-- EXIT: the carrel issues nothing more; its report is made once every store acknowledgement has arrived (R186,
R224). [log DEDUCED 25] -/
def execExit (c : CarrelId) (rd rs1 rs2 : BitVec 5) (s : State) : Out :=
  s.instr c (wordA 0x30 rd rs1 rs2 0) (fun k => k.issue 0x30 (rd == 0 && rs1 == 0 && rs2 == 0) []
    (.next { k with run := .exited, exitDone := true, repExited := k.stores.isEmpty, regs := k.regs.advance } {}))

/-- The register RDSR selects. -/
def CarrelRegs.special (r : CarrelRegs) (sel : BitVec 5) : Word :=
  match sel.toNat with
  | 0 => r.st.word
  | 1 => r.rc.word
  | _ => r.pg.word

/-- RDSR: st, rc or pg; other selections are ILLEGAL. -/
def execRdsr (c : CarrelId) (rd rs1 rs2 : BitVec 5) (s : State) : Out :=
  s.sysRead c (wordA 0x30 rd rs1 rs2 1) (decide (rs1.toNat < 3) && rs2 == 0) 0x30 rd (fun k => k.regs.special rs1)

/-- RDTICK: half of CLK.TICK. -/
def execRdtick (c : CarrelId) (rd rs1 rs2 : BitVec 5) (s : State) : Out :=
  s.sysRead c (wordA 0x30 rd rs1 rs2 2) (decide (rs1.toNat < 2) && rs2 == 0) 0x30 rd
    (fun _ => if rs1 = 0 then s.clk.tick.setWidth 32 else (s.clk.tick >>> 32).setWidth 32)

/-- DRAW: 32 bits from the folio's entropy source, a free value. -/
def execDraw (c : CarrelId) (rd rs1 rs2 : BitVec 5) (s : State) : Out :=
  s.instr c (wordA 0x30 rd rs1 rs2 3) (fun k => k.issue 0x30 (rs1 == 0 && rs2 == 0) [rd]
    (k.pureGate (.next { k with regs := (k.regs.setG rd (Config.entropy s.free)).advance } { draws := 1 })))

/-- AGET: half of an accumulator. -/
def execAget (c : CarrelId) (rd as1 rs2 : BitVec 5) (high : Bool) (s : State) : Out :=
  s.instr c (wordA 0x30 rd as1 rs2 (BitVec.ofBool high ++ (4 : BitVec 10))) (fun k => k.issue 0x30 (accOk as1 && rs2 == 0) [rd]
    (k.retire (fun r => r.setG rd
      (let a := r.getA as1.toNat
       if high then ((a >>> 32).setWidth 16).signExtend 32 else a.setWidth 32))))

/-- ASET: a[ad][31:0] ← g[rs1], a[ad][47:32] ← g[rs2][15:0]. -/
def execAset (c : CarrelId) (ad rs1 rs2 : BitVec 5) (s : State) : Out :=
  s.instr c (wordA 0x30 ad rs1 rs2 5) (fun k => k.issue 0x30 (accOk ad) [rs1, rs2]
    (k.retire (fun r => r.setA ad.toNat
      (BitVec.ofNat 48 ((r.getG rs1).toNat + natBits (r.getG rs2).toNat 0 16 * 2 ^ 32)))))

/-! ### The instruction word (R162 to R165) -/

/-- Field [hi:lo] of an instruction word. -/
def wordField (w : Word) (lo n : Nat) : Nat := natBits w.toNat lo n
/-- A register field of an instruction word. -/
def wordReg (w : Word) (lo : Nat) : BitVec 5 := BitVec.ofNat 5 (wordField w lo 5)

/-- Whether a word is an encoding that Table 7.2 assigns, with every zero field zero and every register field in
range (R162, R164, Table 7.4). -/
def wordLegal (w : Word) : Bool :=
  let op := wordField w 26 6
  let a := wordReg w 21
  let b := wordReg w 16
  let c := wordReg w 11
  let fn := wordField w 0 11
  let size : BitVec 3 := BitVec.ofNat 3 (wordField w 12 3)
  let mark := wordField w 15 1
  let rs3 := wordField w 6 5
  let mode := wordField w 0 6
  match op with
  | 0x00 => decide (fn ≤ 8) || wordField w 0 8 == 9
  | 0x01 => decide (fn ≤ 2) || (decide (fn ≤ 5) && c == 0)
  | 0x02 =>
    predOk a &&
      (decide (fn ≤ 4) || (decide (fn ≤ 6) && predOk b && predOk c) || (fn == 7 && predOk b && c == 0))
  | 0x04 | 0x05 | 0x06 => true
  | 0x07 | 0x08 | 0x09 => wordField w 5 11 == 0
  | 0x0A => wordField w 16 5 == 0
  | 0x10 | 0x11 => true
  | 0x12 | 0x13 => predOk a && b == 0
  | 0x14 | 0x15 => true
  | 0x18 => mark == 0 && (loadSize size || quadSize size) && sizeRegOk a size
  | 0x19 => mark == 0 && (storeSize size || quadSize size) && sizeRegOk a size
  | 0x1A => loadSize size && sizeRegOk a size && pairOk b
  | 0x1B => storeSize size && sizeRegOk a size && pairOk b
  | 0x1C | 0x1D => quadSize size && sizeRegOk a size && pairOk b
  | 0x1E => (size == 2 || size == 3) && sizeRegOk a size && pairOk b
  | 0x1F => decide (2 ≤ fn % 4) && decide (fn < 8) && pairOk b && (fn % 4 != 3 || pairOk c)
  | 0x20 | 0x2B => wordField w 0 26 == 0
  | 0x24 => a == 0 && c == 0 && fn == 0
  | 0x25 => b == 0 && c == 0 && fn == 0
  | 0x28 => a == 0 && c == 0 && rs3 == 0 && decide (mode < 4)
  | 0x29 => a == 0 && decide (mode < 3) && (rs3 == 0 || mode == 2)
  | 0x2A => a == 0 && rs3 == 0 && decide (mode < 16) && decide (mode % 8 < 6)
  | 0x2C => a == 0 && decide (mode < 2) && (rs3 == 0 || mode == 1)
  | 0x2D => a == 0 && decide (mode < 2)
  | 0x2E => decide (mode < 3)
  | 0x30 =>
    match fn % 1024 with
    | 0 => fn == 0 && a == 0 && b == 0 && c == 0
    | 1 => fn == 1 && decide (b.toNat < 3) && c == 0
    | 2 => fn == 2 && decide (b.toNat < 2) && c == 0
    | 3 => fn == 3 && b == 0 && c == 0
    | 4 => accOk b && c == 0
    | 5 => fn == 5 && accOk a
    | _ => false
  | _ => false

/-- The instruction fetch at pc: SRAM_RANGE or SRAM_UE, then PG_MISMATCH, then ILLEGAL (R162, R168, R188). The word
fetched stands in the fetch register, and only the instruction it spells issues (R163, R165). [log DESIGN CHOICE 12] -/
def execInstructionFetch (c : CarrelId) (ecc : Ecc) (s : State) : Out :=
  s.core c (fun k =>
    let a := k.regs.pc.toNat
    if !sramOk a 4 then .fault k faultSramRange {}
    else if ecc.bad then .fault k faultSramUe {}
    else
      let w : Word := BitVec.ofNat 32 (leNat (k.sram.read Memory.blank a 4))
      if k.regs.pg.valid && wordField w 26 6 != k.regs.pg.opcode.toNat then .fault k faultPgMismatch {}
      else if !wordLegal w then .fault k faultIllegal {}
      else .next { k with ir := some w } { sramCe := ecc.words })

/-- The replays of a sentinel step count as any step's, and may overrun; it changes no accumulator (R93, R154). The
number of them that took place is returned. -/
def sentinelReplays (k : Carrel) (done : Nat) : Nat → Carrel × Nat × Bool
  | 0 => (k, done, false)
  | n + 1 =>
    let m := k.beatReplays + 1
    let k' := { k with beatReplays := m,
                       regs := { k.regs with st := { k.regs.st with replays := satInc k.regs.st.replays } } }
    if k.regs.st.allow.toNat < m then (k', done + 1, true) else sentinelReplays k' (done + 1) n

/-- SENTINEL_STEP, flagged `replays` times: of every carrel of a running bay, whatever its core does (R93). A faulted
carrel stays so beside its overrun. -/
def execSentinelStep (c : CarrelId) (replays : Nat) (s : State) : Out :=
  let k := s.carrel c
  match k.bay with
  | none => .next s
  | some b =>
    if !s.fabricRuns || (s.bay b).phase != .running then .next s
    else
      match sentinelReplays k 0 replays with
      | (k', n, true) =>
        .next (s.applyCore c (.next { k'.overran with run := if k.run = .faulted then .faulted else .overrun } { replays := n }))
      | (k', n, false) => .next (s.applyCore c (.next k' { replays := n }))

end Sys2Proof.Machine
end

