-- ==== Sys2Proof/Machine/Units.lean ====
section
/-! DEFINITION. Machine/Units.lean: the matrix unit, the tree walker, the block-move engine and DIFF (R177 to R185,
R148, R154, R155). -/

namespace Sys2Proof.Machine

/-- The sum of a list of integers. -/
def sumInt (l : List Int) : Int := l.foldl (· + ·) 0
/-- An SRAM byte as a signed integer. -/
def sramI8 (m : Memory) (a : Nat) : Int := (m.byte Memory.blank a).toInt
/-- An SRAM word of `n` bytes, little-endian. -/
def sramNat (m : Memory) (a n : Nat) : Nat := leNat (m.read Memory.blank a n)
/-- Change accumulators 0 to n − 1. -/
def CarrelRegs.mapA (r : CarrelRegs) (n : Nat) (f : Nat → BitVec 48 → BitVec 48) : CarrelRegs :=
  (List.range n).foldl (fun t j => t.setA j (f j (r.getA j))) r

/-! ### MXLOAD, MXDRAIN, MXCLR -/

/-- The bytes each mode of MXLOAD reads (R178). -/
def mxloadBytes (mode : Nat) : Nat :=
  match mode with
  | 0 => 256 | 1 => 128 | 2 => 96 | _ => 32

/-- What MXLOAD loads (R178). -/
def CarrelRegs.mxload (r : CarrelRegs) (mode : Nat) (bs : List Byte) : CarrelRegs :=
  match mode with
  | 0 | 1 => { r with tile := r.tile.write Memory.blank 0 bs }
  | 2 => r.mapA 16 (fun j _ => BitVec.ofNat 48 (fieldAt bs (6 * j) 6))
  | _ => r.mapA 8 (fun j _ => BitVec.ofNat 48 (fieldAt bs (4 * j) 4))

/-- MXLOAD: the base is a multiple of 16 in both modes of alignment. -/
def execMxload (c : CarrelId) (rd rs1 rs2 rs3 : BitVec 5) (mode : BitVec 6) (ecc : Ecc) (s : State) : Out :=
  s.instr c (wordX 0x28 rd rs1 rs2 rs3 mode) (fun k => k.issue 0x28 (rd == 0 && rs2 == 0 && rs3 == 0 && decide (mode.toNat < 4)) [rs1]
    (let a := (k.regs.getG rs1).toNat
     let n := mxloadBytes mode.toNat
     if k.unitHeld c then .wait
     else if a % 16 != 0 then .fault k faultMisaligned {}
     else if !sramOk a n then .fault k faultSramRange {}
     else if ecc.bad then .fault k faultSramUe {}
     else .next { k with regs := (k.regs.mxload mode.toNat (k.sram.read Memory.blank a n)).advance }
       { sramCe := ecc.words }))

/-- The value MXDRAIN forms from an accumulator: v = a at s = 0, otherwise half away from zero (R180). -/
def drainShift (a : Int) (s : Nat) : Int :=
  if s = 0 then a
  else
    let m : Int := ((a.natAbs + 2 ^ (s - 1)) / 2 ^ s : Nat)
    if a < 0 then -m else m

/-- An integer result: shifted, clamped, with RELU (R180). -/
def drainInt (a : BitVec 48) (s : Nat) (relu : Bool) (lo hi : Int) : Int :=
  let v := clampInt lo hi (drainShift a.toInt s)
  if relu && decide (v < 0) then 0 else v

/-- An fp32 result: NaN as 0x7FC0_0000; with RELU, −0 and negative values become +0 (R180). [log DEDUCED 18] -/
def drainFp (a : BitVec 48) (relu : Bool) : Word :=
  match fpDecode (a.setWidth 32) with
  | .nan => fpNaN
  | .inf true => if relu then 0 else fpEncode (.inf true)
  | .zero true => if relu then 0 else fpEncode (.zero true)
  | .fin true m e => if relu then 0 else fpEncode (.fin true m e)
  | v => fpEncode v

/-- The bytes MXDRAIN writes (Table 7.6). [log DEDUCED 18] -/
def CarrelRegs.drain (r : CarrelRegs) (kind s : Nat) (relu : Bool) : List Byte :=
  let acc (n : Nat) (f : BitVec 48 → List Byte) : List Byte := (List.range n).flatMap (fun j => f (r.getA j))
  match kind with
  | 0 => acc 16 (fun a => leBytes 6 a.toNat)
  | 1 => acc 16 (fun a => leBytes 1 (BitVec.ofInt 8 (drainInt a s relu (-128) 127)).toNat)
  | 2 => acc 16 (fun a => leBytes 2 (BitVec.ofInt 16 (drainInt a s relu (-32768) 32767)).toNat)
  | 3 => acc 16 (fun a => leBytes 4 (BitVec.ofInt 32 (drainInt a s relu (-2147483648) 2147483647)).toNat)
  | 4 => acc 8 (fun a => leBytes 4 (drainFp a relu).toNat)
  | _ => acc 8 (fun a => leBytes 2 (fpToBf (drainFp a relu)).toNat)

/-- MXDRAIN: kinds 6 and 7 and mode bits [5:4] are ILLEGAL; the accumulators are unchanged. -/
def execMxdrain (c : CarrelId) (rd rs1 rs2 rs3 : BitVec 5) (mode : BitVec 6) (ecc : Ecc) (s : State) : Out :=
  s.instr c (wordX 0x2A rd rs1 rs2 rs3 mode) (fun k =>
    k.issue 0x2A (rd == 0 && rs3 == 0 && decide (mode.toNat < 16) && decide (mode.toNat % 8 < 6)) [rs1, rs2]
    (let a := (k.regs.getG rs1).toNat
     let sh := (k.regs.getG rs2).toNat % 64
     let bs := k.regs.drain (mode.toNat % 8) sh (mode.getLsbD 3)
     if k.unitHeld c then .wait
     else if a % 16 != 0 then .fault k faultMisaligned {}
     else if !sramOk a bs.length then .fault k faultSramRange {}
     else if ecc.bad then .fault k faultSramUe {}
     else .next { k with sram := k.sram.write Memory.blank a bs, regs := k.regs.advance }
       { sram := [(a, bs.length)], sramCe := ecc.words }))

/-- MXCLR: a0–a15 ← 0; all fields zero. -/
def execMxclr (c : CarrelId) (fields : BitVec 26) (s : State) : Out :=
  s.instr c ((0x2B : BitVec 6) ++ fields) (fun k => k.issue 0x2B (fields == 0) [] (k.retire (fun r => r.mapA 16 (fun _ _ => 0))))

/-! ### Long instructions (R148, R177) -/

/-- The element a long instruction starts at: the boundary it stopped at, pg.NEXT on a re-issue, else 0 (R148). -/
def Carrel.firstElement (k : Carrel) : Nat :=
  match k.long with
  | some l => l.2
  | none => if k.regs.pg.valid then k.regs.pg.next.toNat else 0

/-- A long instruction under way: the carrel, the bytes of memory it stored to, its replays, and DIFF's count. -/
structure LongState where
  k      : Carrel
  stores : List (Nat × Nat) := []
  reps   : Nat := 0
  count  : Nat := 0
deriving DecidableEq, Repr

/-- How a run of elements ended. -/
inductive Elements where
  | done (l : LongState)
  | boundary (l : LongState) (next : Nat)
  | fault (l : LongState) (at_ : Nat) (code : Byte)
  | overrun (l : LongState) (at_ : Nat)
deriving DecidableEq, Repr

/-- What one element does: a fault, an overrun, or what it leaves. -/
inductive Element where
  | fault (code : Byte)
  | overrun (l : LongState)
  | done (l : LongState)
deriving DecidableEq, Repr

/-- Run elements from `i` up to `n`, in index order, at most `fuel` of them (R177). [log DESIGN CHOICE 20] -/
def runElements (elem : LongState → Nat → Element) : (fuel : Nat) → (i n : Nat) → LongState → Elements
  | 0, i, n, l => if i < n then .boundary l i else .done l
  | fuel + 1, i, n, l =>
    if i < n then
      match elem l i with
      | .fault code => .fault l i code
      | .overrun l' => .overrun l' i
      | .done l' => runElements elem fuel (i + 1) n l'
    else .done l

/-- Elements that may complete before the boundary of a recall: at least one (R145); without a recall, all. -/
def longFuel (first n : Nat) (limit : Option Nat) : Nat :=
  match limit with
  | none => n - first
  | some l => min (n - first) (max l 1)

/-- A long instruction: its elements from the first, and what its end leaves in pg, pc and `long` (R142, R146, R148).
`stop` is what any stop adds, `finish` what completion adds, `eff` what is left outside the carrel.
An overrun stops it before the element whose replay was too many. [log DESIGN CHOICE 20] -/
def Carrel.longRun (k : Carrel) (op : BitVec 6) (n count : Nat) (env : LongEnv) (elem : LongState → Nat → Element)
    (stop : LongState → Carrel) (finish : LongState → Carrel → Carrel) (eff : LongState → CoreEffect) :
    CoreResult :=
  let first := k.firstElement
  match runElements elem (longFuel first n env.limit) first n { k := k, count := count } with
  | .done l =>
    let t := finish l (stop l)
    .next { t with regs := CarrelRegs.advance { t.regs with pg := {} }, long := none } (eff l)
  | .boundary l i => .next { stop l with long := some (op, i) } (eff l)
  | .fault l i code =>
    let t := stop l
    .fault { t with regs := { t.regs with pg := ⟨BitVec.ofNat 24 i, op, true⟩ } } code (eff l)
  | .overrun l i => .next { (stop l).overran with long := some (op, i) } (eff l)

/-! ### MXPASS -/

/-- One replay: it counts in its beat, in st.REPLAYS and in the folio; the one that takes the beat's count above the
allowance is an overrun (R154, R155, R158). A non-zero `newBeat` says that a beat has begun since the last replay.
[log DESIGN CHOICE 20] -/
def LongState.replay (l : LongState) (newBeat : Nat) : LongState × Bool :=
  let k := l.k
  let n := (if newBeat = 0 then k.beatReplays else 0) + 1
  ({ l with reps := l.reps + 1,
            k := { k with beatReplays := n,
                          regs := { k.regs with st := { k.regs.st with replays := satInc k.regs.st.replays } } } },
   decide (k.regs.st.allow.toNat < n))

/-- The replays of an element, in order; true when one of them is an overrun. -/
def LongState.replayAll (l : LongState) : List (Nat × Nat) → LongState × Bool
  | [] => (l, false)
  | f :: fs =>
    let (l', ovr) := l.replay f.2
    if ovr then (l', true) else l'.replayAll fs

/-- The accumulators after one element of MXPASS (R179); none where its addresses leave SRAM, a sum from
2^32 up too (R183). [log DEDUCED 157] -/
def Carrel.mxElement (k : Carrel) (mode a w i : Nat) : Except Byte CarrelRegs :=
  let r := k.regs
  match mode with
  | 0 =>
    if a % 16 != 0 then .error faultMisaligned
    else if !sramOk (a + 16 * i) 16 then .error faultSramRange
    else .ok (r.mapA 16 (fun j acc => BitVec.ofInt 48 (acc.toInt +
      sumInt ((List.range 16).map (fun t => sramI8 k.sram (a + 16 * i + t) * sramI8 r.tile (16 * t + j))))))
  | 1 =>
    if a % 16 != 0 then .error faultMisaligned
    else if !sramOk (a + 16 * i) 16 then .error faultSramRange
    else .ok (r.mapA 8 (fun j acc =>
      ((List.range 8).foldl (fun v t =>
        fpAdd v (fpMul (bfToFp (BitVec.ofNat 16 (sramNat k.sram (a + 16 * i + 2 * t) 2)))
          (bfToFp (BitVec.ofNat 16 (sramNat r.tile (16 * t + 2 * j) 2))))) (acc.setWidth 32)).setWidth 48))
  | _ =>
    if a % 4 != 0 || w % 16 != 0 then .error faultMisaligned
    else if !sramOk (a + 4 + 4 * i) 4 then .error faultSramRange
    else
      let e := sramNat k.sram (a + 4 + 4 * i) 4
      let row := w + 16 * natBits e 0 16
      if !sramOk row 16 then .error faultSramRange
      else
        let d := (BitVec.ofNat 8 (natBits e 24 8)).toInt - (BitVec.ofNat 8 (natBits e 16 8)).toInt
        .ok (r.mapA 16 (fun j acc => BitVec.ofInt 48 (acc.toInt + d * sramI8 k.sram (row + j))))

/-- MXPASS (R179): g[rs2] elements; rd is zero, and rs3 in modes 0 and 1. -/
def execMxpass (c : CarrelId) (rd rs1 rs2 rs3 : BitVec 5) (mode : BitVec 6) (env : LongEnv)
    (flags : List (Nat × Nat)) (s : State) : Out :=
  s.instr c (wordX 0x29 rd rs1 rs2 rs3 mode) (fun k =>
    k.issue 0x29 (rd == 0 && decide (mode.toNat < 3) && (rs3 == 0 || mode == 2)) [rs1, rs2, rs3]
    (let a := (k.regs.getG rs1).toNat
     let w := (k.regs.getG rs3).toNat
     if k.unitHeld c then .wait
     else k.longRun 0x29 (k.regs.getG rs2).toNat 0 env
      (fun l i =>
        match l.k.mxElement mode.toNat a w i with
        | .error code => .fault code
        | .ok r =>
          if env.ue = some i then .fault faultSramUe
          else
            match l.replayAll (flags.filter (fun f => f.1 == i)) with
            | (l', true) => .overrun l'
            | (l', false) => .done { l' with k := { l'.k with regs := { r with st := l'.k.regs.st } } })
      (fun l => l.k) (fun _ t => t) (fun l => { sramCe := env.ce, replays := l.reps })))

/-! ### TWALK (R181) -/

/-- A tree descriptor (Table 7.7). -/
structure TreeDesc where
  forest   : Nat
  features : Nat
  leaves   : Nat
  stride   : Nat
  zero     : Nat
deriving DecidableEq, Repr

/-- The descriptor at an address. [log DEDUCED 16] -/
def treeDesc (m : Memory) (a : Nat) : TreeDesc :=
  ⟨sramNat m a 4, sramNat m (a + 4) 4, sramNat m (a + 8) 4, sramNat m (a + 12) 2, sramNat m (a + 14) 2⟩

/-- Whether a node goes right (R181 step 2). -/
def treeRight (fp eqRight : Bool) (v th : Word) : Bool :=
  if fp then
    match fpCompare (fpDecode v) (fpDecode th) with
    | some .gt => true
    | some .lt => false
    | _ => eqRight
  else if th.slt v then true
  else if v.slt th then false
  else eqRight

/-- Walk `levels` levels from node `n` of the table at `t`: the node reached, or a fault. [log DEDUCED 157] -/
def treeWalk (m : Memory) (t features : Nat) : (levels n : Nat) → Except Byte Nat
  | 0, n => .ok n
  | l + 1, n =>
    let a := t + 8 + 8 * n
    if !sramOk a 8 then .error faultSramRange
    else
      let node := sramNat m a 8
      let f := features + 4 * natBits node 0 12
      if !sramOk f 4 then .error faultSramRange
      else
        let right := treeRight (natBits node 12 1 == 1) (natBits node 13 1 == 1)
          (BitVec.ofNat 32 (sramNat m f 4)) (BitVec.ofNat 32 (natBits node 32 32))
        treeWalk m t features l (if right then 2 * n + 2 else 2 * n + 1)

/-- One element of TWALK under the descriptor `d` read at issue: where its leaf goes and its bytes, or a fault.
[log DEDUCED 157] -/
def treeElement (d : TreeDesc) (m : Memory) (desc list_ i : Nat) (listMode : Bool) : Except Byte (Nat × List Byte) :=
  let listOdd := listMode && list_ % 2 != 0
  if desc % 16 != 0 then .error faultMisaligned
  else if !sramOk desc 16 then .error (if listOdd then faultMisaligned else faultSramRange)
  else if d.zero != 0 then .error faultIllegal
  else if listOdd || d.forest % 8 != 0 || d.features % 4 != 0 || d.leaves % 4 != 0 || d.stride % 8 != 0 then
    .error faultMisaligned
  else if listMode && !sramOk (list_ + 2 * i) 2 then .error faultSramRange
  else
    let t := if listMode then sramNat m (list_ + 2 * i) 2 else i
    let table := d.forest + t * d.stride
    let out := d.leaves + 4 * t
    if !sramOk table 8 || !sramOk out 4 then .error faultSramRange
    else
      let depth := natBits (sramNat m table 8) 0 4
      if depth = 0 ∨ 11 < depth then .error faultTreeDepth
      else
        match treeWalk m table d.features depth 0 with
        | .error e => .error e
        | .ok n =>
          let leaf := table + 8 * 2 ^ depth + 4 * (n - (2 ^ depth - 1))
          if !sramOk leaf 4 then .error faultSramRange
          else .ok (out, m.read Memory.blank leaf 4)

/-- TWALK: g[rs2] elements; mode bit 0 is list mode. The descriptor is read at every issue. [log DEDUCED 16] -/
def execTwalk (c : CarrelId) (rd rs1 rs2 rs3 : BitVec 5) (mode : BitVec 6) (env : LongEnv) (s : State) : Out :=
  s.instr c (wordX 0x2C rd rs1 rs2 rs3 mode) (fun k =>
    k.issue 0x2C (rd == 0 && decide (mode.toNat < 2) && (rs3 == 0 || mode == 1)) [rs1, rs2, rs3]
    (let desc := (k.regs.getG rs1).toNat
     let d := treeDesc k.sram desc
     let list_ := (k.regs.getG rs3).toNat
     if k.unitHeld c then .wait
     else k.longRun 0x2C (k.regs.getG rs2).toNat 0 env
      (fun l i =>
        match treeElement d l.k.sram desc list_ i (mode == 1) with
        | .error code => .fault code
        | .ok out =>
          if env.ue = some i then .fault faultSramUe
          else .done { l with k := { l.k with sram := l.k.sram.write Memory.blank out.1 out.2 },
                              stores := l.stores ++ [(out.1, 4)] })
      (fun l => l.k) (fun _ t => t) (fun l => { sramCe := env.ce, sram := l.stores })))

/-! ### BMOVE (R182) -/

/-- The checks of one granule (R182, R183). -/
def State.bmoveCheck (s : State) (c : CarrelId) (toStacks : Bool) (a o i : Nat) : Option Byte :=
  if a % 64 != 0 || o % 64 != 0 then some faultMisaligned
  else if !sramOk (a + 64 * i) 64 then some faultSramRange
  else if 0x500000 ≤ o + 64 * i || s.window c (stacksCall c (o + 64 * i)) 64 toStacks == .outside then
    some faultCallNumber
  else none

/-- BMOVE: g[rs2] granules between SRAM at g[rs1] and the own cell at g[rs3]; mode bit 0 names the direction. -/
def execBmove (c : CarrelId) (rd rs1 rs2 rs3 : BitVec 5) (mode : BitVec 6) (env : LongEnv) (s : State) : Out :=
  s.instr c (wordX 0x2D rd rs1 rs2 rs3 mode) (fun k =>
    let toStacks := mode == 1
    k.issue 0x2D (rd == 0 && decide (mode.toNat < 2)) [rs1, rs2, rs3]
    (let a := (k.regs.getG rs1).toNat
     let o := (k.regs.getG rs3).toNat
     let n := (k.regs.getG rs2).toNat
     if k.unitHeld c then .wait
     else
      s.ownTurn c k (k.longRun 0x2D n 0 env
        (fun l i =>
          match s.bmoveCheck c toStacks a o i with
          | some code => .fault code
          | none =>
            if env.ue = some i then .fault (if toStacks then faultSramUe else faultStacksUe)
            else if env.bondUe = some i then .fault faultStacksUe
            else if toStacks then
              let bs := l.k.sram.read Memory.blank (a + 64 * i) 64
              let k' := { l.k with stackMem := l.k.stackMem.write Memory.blank (o + 64 * i) bs }
              .done { l with k := k', stores := l.stores ++ [(o + 64 * i, 64)] }
            else
              let bs := l.k.stackMem.read Memory.blank (o + 64 * i) 64
              let k' := { l.k with sram := l.k.sram.write Memory.blank (a + 64 * i) bs }
              .done { l with k := k', stores := l.stores ++ [(a + 64 * i, 64)] })
        (fun l => { l.k with reserved := none }) (fun _ t => t)
        (fun l => if toStacks then { sramCe := env.ce, bond := env.bond, stackMem := l.stores }
          else { stacksCe := env.ce, bond := env.bond, sram := l.stores }))))

/-! ### DIFF (R184, R185) -/

/-- The entries of a group: (feature, old byte, new byte), in ascending feature index. -/
def diffGroup (m : Memory) (a b i width : Nat) : List Nat :=
  let per := 16 / width
  (List.range per).flatMap (fun f =>
    let new := sramNat m (a + 16 * i + f * width) width
    let old := sramNat m (b + 16 * i + f * width) width
    if new = old then []
    else
      let idx := (i * per + f) % 65536
      [if width = 1 then idx + old * 2 ^ 16 + new * 2 ^ 24 else idx])

/-- One group of DIFF: the count stands in `COUNT` while it runs. [log DEDUCED 158] -/
def diffElement (m : Memory) (a b base i width count : Nat) : Except Byte (Memory × Nat) :=
  if a % 16 != 0 || b % 16 != 0 || base % 4 != 0 then .error faultMisaligned
  else if !sramOk (a + 16 * i) 16 || !sramOk (b + 16 * i) 16 || !sramOk base 4 then .error faultSramRange
  else
    let es := diffGroup m a b i width
    if !sramOk (base + 4 + 4 * count) (4 * es.length) then .error faultSramRange
    else
      .ok (m.write Memory.blank (base + 4 + 4 * count) (es.flatMap (leBytes 4)), count + es.length)

/-- DIFF writes COUNT where its list base can hold it. [log DEDUCED 17] -/
def Carrel.writeCount (k : Carrel) (base count : Nat) : Carrel :=
  if base % 4 == 0 && sramOk base 4 then { k with sram := k.sram.write Memory.blank base (leBytes 4 count) } else k

/-- DIFF: COUNT is written when it stops, and g[rd] ← COUNT when it completes. The count starts at 0, or at COUNT on a
re-issue. [log DEDUCED 17, 158] -/
def execDiff (c : CarrelId) (rd rs1 rs2 rs3 : BitVec 5) (mode : BitVec 6) (env : LongEnv) (s : State) : Out :=
  s.instr c (wordX 0x2E rd rs1 rs2 rs3 mode) (fun k =>
    k.issue 0x2E (decide (mode.toNat < 3)) [rd, rs1, rs2, rs3]
    (let a := (k.regs.getG rs1).toNat
     let b := (k.regs.getG rs3).toNat
     let base := (k.regs.getG rd).toNat
     let n := (k.regs.getG rs2).toNat
     let count := if k.regs.pg.valid || k.long.isSome then sramNat k.sram base 4 else 0
     if k.unitHeld c then .wait
     else k.longRun 0x2E n count env
       (fun l i =>
         match diffElement l.k.sram a b base i (2 ^ mode.toNat) l.count with
         | .error code => .fault code
         | .ok out =>
           if env.ue = some i then .fault faultSramUe
           else .done { l with k := { l.k with sram := out.1 }, count := out.2 })
       (fun l => l.k.writeCount base l.count)
       (fun l t => { t with regs := t.regs.setG rd (BitVec.ofNat 32 l.count) })
       (fun l => { sramCe := env.ce, sram := [(base, 4 + 4 * l.count)] })))

end Sys2Proof.Machine
end

