-- ==== Sys2Proof/Machine/Dispatch.lean ====
section
/-! DEFINITION. Machine/Dispatch.lean: one arm per command of the opcode table, in its order. -/

namespace Sys2Proof.Machine

/-- The effect of a command on everything but the queue. [log DEDUCED 156; DESIGN CHOICE 1] -/
def exec (i : Instr) (s : State) : Host.Outcome State Fault Refusal :=
  match i with
  | .powerApplied mv => Sys2Proof.Machine.execPowerApplied mv s
  | .inputUndervoltage mv => Sys2Proof.Machine.execInputUndervoltage mv s
  | .regulatorShutdown mv => Sys2Proof.Machine.execRegulatorShutdown mv s
  | .inputOvervoltage mv => Sys2Proof.Machine.execInputOvervoltage mv s
  | .referenceReady p => Sys2Proof.Machine.execReferenceReady p s
  | .readyFlagClear p now => Sys2Proof.Machine.execReadyFlagClear p now s
  | .pllStop u => Sys2Proof.Machine.execPllStop u s
  | .pllRelockComplete => Sys2Proof.Machine.execPllRelockComplete s
  | .portPpmWindow p offset throughout => Sys2Proof.Machine.execPortPpmWindow p offset throughout s
  | .refSelect active standby strict => Sys2Proof.Machine.execRefSelect active standby strict s
  | .freqReq target => Sys2Proof.Machine.execFreqReq target s
  | .folioDark mask => Sys2Proof.Machine.execFolioDark mask s
  | .dimFall f => Sys2Proof.Machine.execDimFall f s
  | .dimWake b => Sys2Proof.Machine.execDimWake b s
  | .avsFrameEffect f cut => Sys2Proof.Machine.execAvsFrameEffect f cut s
  | .railSettled f => Sys2Proof.Machine.execRailSettled f s
  | .railMeterUpdate f counts => Sys2Proof.Machine.execRailMeterUpdate f counts s
  | .capUpdate telemetry mv deciAmps => Sys2Proof.Machine.execCapUpdate telemetry mv deciAmps s
  | .trimReqWrite f req => Sys2Proof.Machine.execTrimReqWrite f req s
  | .trimClear f => Sys2Proof.Machine.execTrimClear f s
  | .alertAssert line rail => Sys2Proof.Machine.execAlertAssert line rail s
  | .alertHoldExpiry => Sys2Proof.Machine.execAlertHoldExpiry s
  | .resumeFromAlert data pecOk => Sys2Proof.Machine.execResumeFromAlert data pecOk s
  | .coolantMeasurement inlet outlet flow => Sys2Proof.Machine.execCoolantMeasurement inlet outlet flow s
  | .junctionReport f celsius => Sys2Proof.Machine.execJunctionReport f celsius s
  | .romEnd a b => Sys2Proof.Machine.execRomEnd a b s
  | .electTimeout => Sys2Proof.Machine.execElectTimeout s
  | .bookplateEnd flashOk fwA fwB => Sys2Proof.Machine.execBookplateEnd flashOk fwA fwB s
  | .clocksEnd => Sys2Proof.Machine.execClocksEnd s
  | .inventoryEnd rep => Sys2Proof.Machine.execInventoryEnd rep s
  | .rebindEnd => Sys2Proof.Machine.execRebindEnd s
  | .auditEnd rep => Sys2Proof.Machine.execAuditEnd rep s
  | .calibrateEnd rows => Sys2Proof.Machine.execCalibrateEnd rows s
  | .raiseEnd => Sys2Proof.Machine.execRaiseEnd s
  | .stageLimit => Sys2Proof.Machine.execStageLimit s
  | .noCuratorTimeout p => Sys2Proof.Machine.execNoCuratorTimeout p s
  | .heartbeat => Sys2Proof.Machine.execHeartbeat s
  | .heartbeatTimeout => Sys2Proof.Machine.execHeartbeatTimeout s
  | .librarianHeartbeatTimeout => Sys2Proof.Machine.execLibrarianHeartbeatTimeout s
  | .add c rd rs1 rs2 => Sys2Proof.Machine.execAdd c rd rs1 rs2 s
  | .sub c rd rs1 rs2 => Sys2Proof.Machine.execSub c rd rs1 rs2 s
  | .and c rd rs1 rs2 => Sys2Proof.Machine.execAnd c rd rs1 rs2 s
  | .or c rd rs1 rs2 => Sys2Proof.Machine.execOr c rd rs1 rs2 s
  | .xor c rd rs1 rs2 => Sys2Proof.Machine.execXor c rd rs1 rs2 s
  | .sll c rd rs1 rs2 => Sys2Proof.Machine.execSll c rd rs1 rs2 s
  | .srl c rd rs1 rs2 => Sys2Proof.Machine.execSrl c rd rs1 rs2 s
  | .sra c rd rs1 rs2 => Sys2Proof.Machine.execSra c rd rs1 rs2 s
  | .mul c rd rs1 rs2 => Sys2Proof.Machine.execMul c rd rs1 rs2 s
  | .sel c rd rs1 rs2 p => Sys2Proof.Machine.execSel c rd rs1 rs2 p s
  | .fadd c rd rs1 rs2 => Sys2Proof.Machine.execFadd c rd rs1 rs2 s
  | .fsub c rd rs1 rs2 => Sys2Proof.Machine.execFsub c rd rs1 rs2 s
  | .fmul c rd rs1 rs2 => Sys2Proof.Machine.execFmul c rd rs1 rs2 s
  | .fcvtif c rd rs1 rs2 => Sys2Proof.Machine.execFcvtif c rd rs1 rs2 s
  | .fcvtfi c rd rs1 rs2 => Sys2Proof.Machine.execFcvtfi c rd rs1 rs2 s
  | .ftobf c rd rs1 rs2 => Sys2Proof.Machine.execFtobf c rd rs1 rs2 s
  | .cmpeq c pd rs1 rs2 => Sys2Proof.Machine.execCmpeq c pd rs1 rs2 s
  | .cmplt c pd rs1 rs2 => Sys2Proof.Machine.execCmplt c pd rs1 rs2 s
  | .cmpltu c pd rs1 rs2 => Sys2Proof.Machine.execCmpltu c pd rs1 rs2 s
  | .fcmplt c pd rs1 rs2 => Sys2Proof.Machine.execFcmplt c pd rs1 rs2 s
  | .fcmple c pd rs1 rs2 => Sys2Proof.Machine.execFcmple c pd rs1 rs2 s
  | .pand c pd ps1 ps2 => Sys2Proof.Machine.execPand c pd ps1 ps2 s
  | .por c pd ps1 ps2 => Sys2Proof.Machine.execPor c pd ps1 ps2 s
  | .pnot c pd ps1 ps2 => Sys2Proof.Machine.execPnot c pd ps1 ps2 s
  | .addi c rd rs1 imm => Sys2Proof.Machine.execAddi c rd rs1 imm s
  | .andi c rd rs1 imm => Sys2Proof.Machine.execAndi c rd rs1 imm s
  | .ori c rd rs1 imm => Sys2Proof.Machine.execOri c rd rs1 imm s
  | .slli c rd rs1 imm => Sys2Proof.Machine.execSlli c rd rs1 imm s
  | .srli c rd rs1 imm => Sys2Proof.Machine.execSrli c rd rs1 imm s
  | .srai c rd rs1 imm => Sys2Proof.Machine.execSrai c rd rs1 imm s
  | .lui c rd imm => Sys2Proof.Machine.execLui c rd imm s
  | .beq c rs1 rs2 off => Sys2Proof.Machine.execBeq c rs1 rs2 off s
  | .bne c rs1 rs2 off => Sys2Proof.Machine.execBne c rs1 rs2 off s
  | .bp c ps rs2 off => Sys2Proof.Machine.execBp c ps rs2 off s
  | .bnp c ps rs2 off => Sys2Proof.Machine.execBnp c ps rs2 off s
  | .jal c rd imm => Sys2Proof.Machine.execJal c rd imm s
  | .jalr c rd rs1 imm => Sys2Proof.Machine.execJalr c rd rs1 imm s
  | .ldl c rt rb mark size off ecc => Sys2Proof.Machine.execLdl c rt rb mark size off ecc s
  | .stl c rt rb mark size off ecc => Sys2Proof.Machine.execStl c rt rb mark size off ecc s
  | .lds c rt rb mark size off ecc => Sys2Proof.Machine.execLds c rt rb mark size off ecc s
  | .sts c rt rb mark size off ecc => Sys2Proof.Machine.execSts c rt rb mark size off ecc s
  | .ld2 c rt rb mark size off ecc => Sys2Proof.Machine.execLd2 c rt rb mark size off ecc s
  | .st2 c rt rb mark size off ecc => Sys2Proof.Machine.execSt2 c rt rb mark size off ecc s
  | .ldres c rt rb mark size off ecc => Sys2Proof.Machine.execLdres c rt rb mark size off ecc s
  | .stcond c rd rs1 rs2 fn ecc => Sys2Proof.Machine.execStcond c rd rs1 rs2 fn ecc s
  | .fence c fields => Sys2Proof.Machine.execFence c fields s
  | .beatwait c rd rs1 rs2 fn => Sys2Proof.Machine.execBeatwait c rd rs1 rs2 fn s
  | .beatrd c rd rs1 rs2 fn => Sys2Proof.Machine.execBeatrd c rd rs1 rs2 fn s
  | .mxload c rd rs1 rs2 rs3 mode ecc => Sys2Proof.Machine.execMxload c rd rs1 rs2 rs3 mode ecc s
  | .mxpass c rd rs1 rs2 rs3 mode env flags => Sys2Proof.Machine.execMxpass c rd rs1 rs2 rs3 mode env flags s
  | .mxdrain c rd rs1 rs2 rs3 mode ecc => Sys2Proof.Machine.execMxdrain c rd rs1 rs2 rs3 mode ecc s
  | .mxclr c fields => Sys2Proof.Machine.execMxclr c fields s
  | .twalk c rd rs1 rs2 rs3 mode env => Sys2Proof.Machine.execTwalk c rd rs1 rs2 rs3 mode env s
  | .bmove c rd rs1 rs2 rs3 mode env => Sys2Proof.Machine.execBmove c rd rs1 rs2 rs3 mode env s
  | .diff c rd rs1 rs2 rs3 mode env => Sys2Proof.Machine.execDiff c rd rs1 rs2 rs3 mode env s
  | .exit c rd rs1 rs2 => Sys2Proof.Machine.execExit c rd rs1 rs2 s
  | .rdsr c rd rs1 rs2 => Sys2Proof.Machine.execRdsr c rd rs1 rs2 s
  | .rdtick c rd rs1 rs2 => Sys2Proof.Machine.execRdtick c rd rs1 rs2 s
  | .draw c rd rs1 rs2 => Sys2Proof.Machine.execDraw c rd rs1 rs2 s
  | .aget c rd as1 rs2 high => Sys2Proof.Machine.execAget c rd as1 rs2 high s
  | .aset c ad rs1 rs2 => Sys2Proof.Machine.execAset c ad rs1 rs2 s
  | .recallTaken c => Sys2Proof.Machine.execRecallTaken c s
  | .quiescence c => Sys2Proof.Machine.execQuiescence c s
  | .quiesced b c => Sys2Proof.Machine.execQuiesced b c s
  | .exited b c => Sys2Proof.Machine.execExited b c s
  | .fault b c => Sys2Proof.Machine.execFault b c s
  | .overrun b c => Sys2Proof.Machine.execOverrun b c s
  | .plane b c => Sys2Proof.Machine.execPlane b c s
  | .start b => Sys2Proof.Machine.execStart b s
  | .resume b => Sys2Proof.Machine.execResume b s
  | .bayRecall b => Sys2Proof.Machine.execBayRecall b s
  | .fraction b => Sys2Proof.Machine.execFraction b s
  | .flit b ev => Sys2Proof.Machine.execFlit b ev s
  | .egressRelease b => Sys2Proof.Machine.execEgressRelease b s
  | .refreshComplete b ecc => Sys2Proof.Machine.execRefreshComplete b ecc s
  | .bookmarkLookupResult b => Sys2Proof.Machine.execBookmarkLookupResult b s
  | .imageCopyComplete b => Sys2Proof.Machine.execImageCopyComplete b s
  | .inputWriteComplete b => Sys2Proof.Machine.execInputWriteComplete b s
  | .shelveOutComplete b ecc => Sys2Proof.Machine.execShelveOutComplete b ecc s
  | .shelveInComplete b ecc => Sys2Proof.Machine.execShelveInComplete b ecc s
  | .passLoanExpiry b shelved => Sys2Proof.Machine.execPassLoanExpiry b shelved s
  | .requestLoanExpiry accession => Sys2Proof.Machine.execRequestLoanExpiry accession s
  | .stacksRefresh c => Sys2Proof.Machine.execStacksRefresh c s
  | .duplexCompare b => Sys2Proof.Machine.execDuplexCompare b s
  | .packetHop a port p chk => Sys2Proof.Machine.execPacketHop a port p chk s
  | .syncWord a port chk => Sys2Proof.Machine.execSyncWord a port chk s
  | .read p ecc => Sys2Proof.Machine.execRead p ecc s
  | .write p ecc => Sys2Proof.Machine.execWrite p ecc s
  | .resv p ecc => Sys2Proof.Machine.execResv p ecc s
  | .cond p ecc => Sys2Proof.Machine.execCond p ecc s
  | .data p => Sys2Proof.Machine.execData p s
  | .ack p => Sys2Proof.Machine.execAck p s
  | .ctrl p catBay wafer ready => Sys2Proof.Machine.execCtrl p catBay wafer ready s
  | .abort p => Sys2Proof.Machine.execAbort p s
  | .reservationQueueTimeout home requester => Sys2Proof.Machine.execReservationQueueTimeout home requester s
  | .electricalStage l ok => Sys2Proof.Machine.execElectricalStage l ok s
  | .identityStage l partner => Sys2Proof.Machine.execIdentityStage l partner s
  | .frequencyStage l offset auditOk => Sys2Proof.Machine.execFrequencyStage l offset auditOk s
  | .latencyStage l roundTrips => Sys2Proof.Machine.execLatencyStage l roundTrips s
  | .linkRetrain l => Sys2Proof.Machine.execLinkRetrain l s
  | .linkOffsetWindow l offset => Sys2Proof.Machine.execLinkOffsetWindow l offset s
  | .codeword l cw => Sys2Proof.Machine.execCodeword l cw s
  | .linkSilence l => Sys2Proof.Machine.execLinkSilence l s
  | .crossingDeadline l => Sys2Proof.Machine.execCrossingDeadline l s
  | .doorbell r tail => Sys2Proof.Machine.execDoorbell r tail s
  | .verHead r head => Sys2Proof.Machine.execVerHead r head s
  | .notHead r head => Sys2Proof.Machine.execNotHead r head s
  | .rdrControl r bits => Sys2Proof.Machine.execRdrControl r bits s
  | .rdrWindow r base => Sys2Proof.Machine.execRdrWindow r base s
  | .ringConfig r ring base size => Sys2Proof.Machine.execRingConfig r ring base size s
  | .bookDropCommit r slot word => Sys2Proof.Machine.execBookDropCommit r slot word s
  | .bookDropWrite r offset bytes => Sys2Proof.Machine.execBookDropWrite r offset bytes s
  | .hostReadCompletion t ok bytes => Sys2Proof.Machine.execHostReadCompletion t ok bytes s
  | .hostReadTimeout t => Sys2Proof.Machine.execHostReadTimeout t s
  | .msixHoldoff r v => Sys2Proof.Machine.execMsixHoldoff r v s
  | .holdExpiry r => Sys2Proof.Machine.execHoldExpiry r s
  | .perst p => Sys2Proof.Machine.execPerst p s
  | .hotReset p => Sys2Proof.Machine.execHotReset p s
  | .linkDown p => Sys2Proof.Machine.execLinkDown p s
  | .linkUp p speed flit width => Sys2Proof.Machine.execLinkUp p speed flit width s
  | .flr r => Sys2Proof.Machine.execFlr r s
  | .vfEnableClear p => Sys2Proof.Machine.execVfEnableClear p s
  | .readerResetQuiesced r => Sys2Proof.Machine.execReaderResetQuiesced r s
  | .waferReset tag => Sys2Proof.Machine.execWaferReset tag s
  | .bookplateWrite tag => Sys2Proof.Machine.execBookplateWrite tag s
  | .keyEnroll tag => Sys2Proof.Machine.execKeyEnroll tag s
  | .keyRevoke tag => Sys2Proof.Machine.execKeyRevoke tag s
  | .readerReset tag => Sys2Proof.Machine.execReaderReset tag s
  | .ledgerCheckpoint tag => Sys2Proof.Machine.execLedgerCheckpoint tag s
  | .relinquish tag => Sys2Proof.Machine.execRelinquish tag s
  | .challengeIssue tag => Sys2Proof.Machine.execChallengeIssue tag s
  | .challengeUnlock tag => Sys2Proof.Machine.execChallengeUnlock tag s
  | .challengeRecover tag => Sys2Proof.Machine.execChallengeRecover tag s
  | .loadHostWhole => Sys2Proof.Machine.execLoadHostWhole s
  | .loadHostBay => Sys2Proof.Machine.execLoadHostBay s
  | .loadFlash => Sys2Proof.Machine.execLoadFlash s
  | .loadRomSample index => Sys2Proof.Machine.execLoadRomSample index s
  | .unload => Sys2Proof.Machine.execUnload s
  | .codexHeaderRead => Sys2Proof.Machine.execCodexHeaderRead s
  | .codexLoadEnd => Sys2Proof.Machine.execCodexLoadEnd s
  | .loadVolume b vslot => Sys2Proof.Machine.execLoadVolume b vslot s
  | .volumeLoadEnd => Sys2Proof.Machine.execVolumeLoadEnd s
  | .volumeLoadAbandon => Sys2Proof.Machine.execVolumeLoadAbandon s
  | .evict b vslot => Sys2Proof.Machine.execEvict b vslot s
  | .pause b => Sys2Proof.Machine.execPause b s
  | .bayContinue b => Sys2Proof.Machine.execBayContinue b s
  | .bayReset b => Sys2Proof.Machine.execBayReset b s
  | .invalidate => Sys2Proof.Machine.execInvalidate s
  | .bkmConfig sets => Sys2Proof.Machine.execBkmConfig sets s
  | .storeCodex => Sys2Proof.Machine.execStoreCodex s
  | .clearCodex => Sys2Proof.Machine.execClearCodex s
  | .storeFirmware => Sys2Proof.Machine.execStoreFirmware s
  | .flashProgramComplete => Sys2Proof.Machine.execFlashProgramComplete s
  | .checkpointTimer => Sys2Proof.Machine.execCheckpointTimer s
  | .drainHead head => Sys2Proof.Machine.execDrainHead head s
  | .ident => Sys2Proof.Machine.execIdent s
  | .status => Sys2Proof.Machine.execStatus s
  | .thermal => Sys2Proof.Machine.execThermal s
  | .power => Sys2Proof.Machine.execPower s
  | .clearWarn data pecOk => Sys2Proof.Machine.execClearWarn data pecOk s
  | .alertResponseAddress => Sys2Proof.Machine.execAlertResponseAddress s
  | .extest => Sys2Proof.Machine.execExtest s
  | .idcode => Sys2Proof.Machine.execIdcode s
  | .samplePreload => Sys2Proof.Machine.execSamplePreload s
  | .highz => Sys2Proof.Machine.execHighz s
  | .bypass => Sys2Proof.Machine.execBypass s
  | .testLogicReset => Sys2Proof.Machine.execTestLogicReset s
  | .registerWrite at_ value => Sys2Proof.Machine.execRegisterWrite at_ value s
  | .rcRead at_ => Sys2Proof.Machine.execRcRead at_ s
  | .alertLineClear line rail => Sys2Proof.Machine.execAlertLineClear line rail s
  | .configurationSpaceWrite r w => Sys2Proof.Machine.execConfigurationSpaceWrite r w s
  | .sentinelStep c replays => Sys2Proof.Machine.execSentinelStep c replays s
  | .instructionFetch c ecc => Sys2Proof.Machine.execInstructionFetch c ecc s
  | .controlWord dst => Sys2Proof.Machine.execControlWord dst s

end Sys2Proof.Machine
end

