-- ==== Sys2Proof/Machine/Tick.lean ====
section
/-! DEFINITION. Machine/Tick.lean: what the passing of one reference tick does when no command waits (R68, R74). -/

namespace Sys2Proof.Machine

/-- The idle count of a folio one tick later: zero where the folio is busy (R74). [log DESIGN CHOICE 2] -/
def Folio.countIdle (x : Folio) (busy : Bool) : Folio :=
  if x.clock = .warm ∨ x.clock = .dim then { x with idle := if busy then 0 else x.idle + 1 } else x

/-- CLK.TICK counts the edges of the active reference (R68). [log DESIGN CHOICE 2] -/
def Clk.advance (c : Clk) (runs : Bool) : Clk := if runs then { c with tick := c.tick + 1 } else c

/-- One tick of time: the external time goes on, CLK.TICK counts while a reference runs it, folios that no pass keeps
busy grow idle, outputs that wait for credit are counted, and at a frame edge what waits for one goes on (R68, R70, R74, R227). [log DESIGN CHOICE 2, 10] -/
def idleTick (s : State) : Host.Outcome State Fault Refusal :=
  let t : State := { s with ext := s.ext + 1, clk := s.clk.advance s.tickRuns }
  let t := if t.fabricRuns then (t.mapFolios (fun f x => x.countIdle (t.folioBusy f))).countBlocked else t
  let t := if t.folios.any (fun e => e.2.trimWait) then t.trimGo else t
  .next (if t.clk.lockWait && t.atFrameEdge && t.edgeMayRun then t.frameEdge else t)

end Sys2Proof.Machine
end

