-- ==== Sys2Proof/Machine/Step.lean ====
section
/-! DEFINITION. Machine/Step.lean: one step takes the command at the front of the queue; an empty queue lets one
tick of the reference pass. -/

namespace Sys2Proof.Machine

/-- One step: the command at the front of the queue, run with the queue's rest; on an empty queue one reference
tick of time passes (notes/assumptions/2). [log DESIGN CHOICE 2, 13, 154] -/
def step (s : State) : Host.Outcome State Fault Refusal :=
  match s.pending with
  | [] => Sys2Proof.Machine.idleTick s
  | c :: rest => Sys2Proof.Machine.exec c { s with pending := rest }

/-- The queue with the command that a word spells put at its front; unchanged where the word spells none.
[log DESIGN CHOICE 12] -/
def State.withFetchWord (s : State) (nbits w : Nat) : State :=
  match Sys2Proof.decodeTableWord nbits w with
  | some i => { s with pending := i :: s.pending }
  | none => s

end Sys2Proof.Machine
end

