-- ==== Sys2Proof/Safety.lean ====
section
/-! DEFINITION. Safety.lean: what a safe outcome is (the block goes on to a next state), and the terms in which
statements speak of commands: when a carrel issues an instruction, what retires, what faults. -/

namespace Sys2Proof.Machine

/-- The outcome is a next state. -/
def Completes (o : Host.Outcome State Fault Refusal) : Prop := ∃ t, o = .next t

/-- The outcome is a next state with a property. -/
def Yields (o : Host.Outcome State Fault Refusal) (P : State → Prop) : Prop := ∃ t, o = .next t ∧ P t

/-- The word that encodes a carrel's instruction, by the formats of Table 7.1 and the op and fn values of Tables 7.2 and 7.3
(R163, R165); 0, which no other row needs, for a command that is no instruction. -/
def instrWord (i : Instr) : Word :=
  match i with
  | .add _ rd rs1 rs2 => wordA 0x00 rd rs1 rs2 0x000
  | .sub _ rd rs1 rs2 => wordA 0x00 rd rs1 rs2 0x001
  | .and _ rd rs1 rs2 => wordA 0x00 rd rs1 rs2 0x002
  | .or _ rd rs1 rs2 => wordA 0x00 rd rs1 rs2 0x003
  | .xor _ rd rs1 rs2 => wordA 0x00 rd rs1 rs2 0x004
  | .sll _ rd rs1 rs2 => wordA 0x00 rd rs1 rs2 0x005
  | .srl _ rd rs1 rs2 => wordA 0x00 rd rs1 rs2 0x006
  | .sra _ rd rs1 rs2 => wordA 0x00 rd rs1 rs2 0x007
  | .mul _ rd rs1 rs2 => wordA 0x00 rd rs1 rs2 0x008
  | .sel _ rd rs1 rs2 p => wordA 0x00 rd rs1 rs2 (p ++ (0x09 : BitVec 8))
  | .fadd _ rd rs1 rs2 => wordA 0x01 rd rs1 rs2 0x000
  | .fsub _ rd rs1 rs2 => wordA 0x01 rd rs1 rs2 0x001
  | .fmul _ rd rs1 rs2 => wordA 0x01 rd rs1 rs2 0x002
  | .fcvtif _ rd rs1 rs2 => wordA 0x01 rd rs1 rs2 0x003
  | .fcvtfi _ rd rs1 rs2 => wordA 0x01 rd rs1 rs2 0x004
  | .ftobf _ rd rs1 rs2 => wordA 0x01 rd rs1 rs2 0x005
  | .cmpeq _ pd rs1 rs2 => wordA 0x02 pd rs1 rs2 0x000
  | .cmplt _ pd rs1 rs2 => wordA 0x02 pd rs1 rs2 0x001
  | .cmpltu _ pd rs1 rs2 => wordA 0x02 pd rs1 rs2 0x002
  | .fcmplt _ pd rs1 rs2 => wordA 0x02 pd rs1 rs2 0x003
  | .fcmple _ pd rs1 rs2 => wordA 0x02 pd rs1 rs2 0x004
  | .pand _ pd ps1 ps2 => wordA 0x02 pd ps1 ps2 0x005
  | .por _ pd ps1 ps2 => wordA 0x02 pd ps1 ps2 0x006
  | .pnot _ pd ps1 ps2 => wordA 0x02 pd ps1 ps2 0x007
  | .addi _ rd rs1 imm => wordI 0x04 rd rs1 imm
  | .andi _ rd rs1 imm => wordI 0x05 rd rs1 imm
  | .ori _ rd rs1 imm => wordI 0x06 rd rs1 imm
  | .slli _ rd rs1 imm => wordI 0x07 rd rs1 imm
  | .srli _ rd rs1 imm => wordI 0x08 rd rs1 imm
  | .srai _ rd rs1 imm => wordI 0x09 rd rs1 imm
  | .lui _ rd imm => wordU 0x0A rd imm
  | .beq _ rs1 rs2 off => wordI 0x10 rs1 rs2 off
  | .bne _ rs1 rs2 off => wordI 0x11 rs1 rs2 off
  | .bp _ ps rs2 off => wordI 0x12 ps rs2 off
  | .bnp _ ps rs2 off => wordI 0x13 ps rs2 off
  | .jal _ rd imm => wordU 0x14 rd imm
  | .jalr _ rd rs1 imm => wordI 0x15 rd rs1 imm
  | .ldl _ rt rb mark size off _ => wordM 0x18 rt rb mark size off
  | .stl _ rt rb mark size off _ => wordM 0x19 rt rb mark size off
  | .lds _ rt rb mark size off _ => wordM 0x1A rt rb mark size off
  | .sts _ rt rb mark size off _ => wordM 0x1B rt rb mark size off
  | .ld2 _ rt rb mark size off _ => wordM 0x1C rt rb mark size off
  | .st2 _ rt rb mark size off _ => wordM 0x1D rt rb mark size off
  | .ldres _ rt rb mark size off _ => wordM 0x1E rt rb mark size off
  | .stcond _ rd rs1 rs2 fn _ => wordA 0x1F rd rs1 rs2 fn
  | .fence _ fields => (0x20 : BitVec 6) ++ fields
  | .beatwait _ rd rs1 rs2 fn => wordA 0x24 rd rs1 rs2 fn
  | .beatrd _ rd rs1 rs2 fn => wordA 0x25 rd rs1 rs2 fn
  | .mxload _ rd rs1 rs2 rs3 mode _ => wordX 0x28 rd rs1 rs2 rs3 mode
  | .mxpass _ rd rs1 rs2 rs3 mode _ _ => wordX 0x29 rd rs1 rs2 rs3 mode
  | .mxdrain _ rd rs1 rs2 rs3 mode _ => wordX 0x2A rd rs1 rs2 rs3 mode
  | .mxclr _ fields => (0x2B : BitVec 6) ++ fields
  | .twalk _ rd rs1 rs2 rs3 mode _ => wordX 0x2C rd rs1 rs2 rs3 mode
  | .bmove _ rd rs1 rs2 rs3 mode _ => wordX 0x2D rd rs1 rs2 rs3 mode
  | .diff _ rd rs1 rs2 rs3 mode _ => wordX 0x2E rd rs1 rs2 rs3 mode
  | .exit _ rd rs1 rs2 => wordA 0x30 rd rs1 rs2 0x000
  | .rdsr _ rd rs1 rs2 => wordA 0x30 rd rs1 rs2 0x001
  | .rdtick _ rd rs1 rs2 => wordA 0x30 rd rs1 rs2 0x002
  | .draw _ rd rs1 rs2 => wordA 0x30 rd rs1 rs2 0x003
  | .aget _ rd as1 rs2 high => wordA 0x30 rd as1 rs2 (if high then 0x404 else 0x004)
  | .aset _ ad rs1 rs2 => wordA 0x30 ad rs1 rs2 0x005
  | _ => 0

/-- The word last fetched at the carrel's pc is the one that encodes the instruction (R162). -/
def State.Fetched (s : State) (c : CarrelId) (i : Instr) : Prop := (s.carrel c).ir = some (instrWord i)

/-- The carrel can issue an instruction of major opcode `op` that uses registers `uses`: its core runs, pg does not name
another opcode, no long instruction stands stopped, and no reply is pending on a register used (R173, R190). -/
def State.Issues (s : State) (c : CarrelId) (op : BitVec 6) (uses : List (BitVec 5)) : Prop :=
  s.coreReady c = true ∧
  ((s.carrel c).regs.pg.valid = true → (s.carrel c).regs.pg.opcode = op) ∧
  (s.carrel c).long = none ∧
  ∀ i ∈ uses, (s.carrel c).regPending i = false

/-- The instruction, fetched, changes the carrel's registers by `f` and moves pc to the next one, and nothing else. -/
def State.Retires (s : State) (i : Instr) (c : CarrelId) (f : CarrelRegs → CarrelRegs) : Prop :=
  s.Fetched c i → exec i s = .next (s.setCarrel c
    { s.carrel c with regs := { f (s.carrel c).regs with pc := (s.carrel c).regs.pc + 4 }, ir := none })

/-- The command stops the carrel with a fault code, and changes nothing else. -/
def State.Stops (s : State) (i : Instr) (c : CarrelId) (code : Byte) : Prop :=
  exec i s = .next (s.setCarrel c ((s.carrel c).raise code))
/-- The instruction, fetched, stops the carrel with a fault code, and changes nothing else. -/
def State.Raises (s : State) (i : Instr) (c : CarrelId) (code : Byte) : Prop := s.Fetched c i → s.Stops i c code

/-- Every piece of a shared access lies in a window of the pass that a pure volume may read (R171, R187, R232). -/
def State.Reaches (s : State) (c : CarrelId) (rb : BitVec 5) (ps : List (BitVec 48 × Nat × Nat)) (write : Bool) : Prop :=
  (s.carrel c).regs.callHigh rb = 0 ∧
  ∀ q ∈ ps, s.window c q.1 q.2.1 write ≠ .outside ∧
    (write = false → (s.carrel c).regs.st.pure_ = true → s.window c q.1 q.2.1 write ≠ .entry)

/-- The environment of a long instruction that nothing interrupts. -/
def LongEnv.quiet : LongEnv := ⟨none, none, 0, 0, none⟩

/-- Memory after the first `n` elements of TWALK, one after another, under the descriptor that stands there before; none
where an element faults. -/
def twalkMemory (m : Memory) (desc list_ : Nat) (listMode : Bool) : Nat → Option Memory
  | 0 => some m
  | n + 1 =>
    match twalkMemory m desc list_ listMode n with
    | none => none
    | some m' =>
      match treeElement (treeDesc m desc) m' desc list_ n listMode with
      | .ok out => some (m'.write Memory.blank out.1 out.2)
      | .error _ => none

/-- Memory and count after the first `n` groups of DIFF, one after another; none where a group faults. -/
def diffMemory (m : Memory) (a b base width : Nat) : Nat → Option (Memory × Nat)
  | 0 => some (m, 0)
  | n + 1 =>
    match diffMemory m a b base width n with
    | none => none
    | some out =>
      match diffElement out.1 a b base n width out.2 with
      | .ok o => some o
      | .error _ => none

/-- The memories of a carrel and of its SAVE are in canonical form: addresses rising, no byte listed that an unlisted
address reads as. -/
def Carrel.MemoriesCanonical (k : Carrel) : Prop :=
  Memory.wf Memory.blank k.sram = true ∧ Memory.wf Memory.blank k.stackMem = true ∧
  Memory.wf Memory.blank k.regs.tile = true ∧
  ∀ v, k.save = some v → Memory.wf Memory.blank v.sram = true ∧ Memory.wf Memory.blank v.regs.tile = true

/-- The archive, the flash and every carrel's memories are in canonical form (the bytes of a book-drop slot are no part of
this). -/
def State.MemoriesCanonical (s : State) : Prop :=
  Memory.wf Memory.blank s.archive = true ∧ Memory.wf Memory.erased s.flash = true ∧
  ∀ e ∈ s.carrels, e.2.MemoriesCanonical

end Sys2Proof.Machine
end

