-- ==== Sys2Proof/Certificates/Slice0/Obligations.lean ====
section
/-! DEFINITION. Certificates/Slice0/Obligations.lean: what the provers are asked to prove of the block. Each docstring
names the spec's rule or table that the statement formalises. -/

open Sys2Proof Sys2Proof.Machine

/-! ### The queue -/

/-- One step takes the command at the front of the queue and answers what exec answers with the queue's rest. -/
def Obligations.StepRunsTheFrontCommand : Prop :=
  ∀ (s : State) (c : Instr) (rest : List Instr),
    s.pending = c :: rest → step s = exec c { s with pending := rest }

/-! ### Carrel instructions (chapter 7) -/

/-- Table 7.3, R166: the integer operations of two g registers and SEL. Shift amounts are the low 5 bits of the
source. The next state is the old one but for g[rd] and pc. -/
def Obligations.IntegerOperationsWriteRd : Prop :=
  ∀ (s : State) (c : CarrelId) (rd rs1 rs2 : BitVec 5) (p : BitVec 3), s.Issues c 0x00 [rd, rs1, rs2] →
    s.Retires (.add c rd rs1 rs2) c (fun r => r.setG rd (r.getG rs1 + r.getG rs2)) ∧
    s.Retires (.sub c rd rs1 rs2) c (fun r => r.setG rd (r.getG rs1 - r.getG rs2)) ∧
    s.Retires (.and c rd rs1 rs2) c (fun r => r.setG rd (r.getG rs1 &&& r.getG rs2)) ∧
    s.Retires (.or c rd rs1 rs2) c (fun r => r.setG rd (r.getG rs1 ||| r.getG rs2)) ∧
    s.Retires (.xor c rd rs1 rs2) c (fun r => r.setG rd (r.getG rs1 ^^^ r.getG rs2)) ∧
    s.Retires (.sll c rd rs1 rs2) c
      (fun r => r.setG rd (r.getG rs1 <<< ((r.getG rs2).extractLsb' 0 5).toNat)) ∧
    s.Retires (.srl c rd rs1 rs2) c
      (fun r => r.setG rd (r.getG rs1 >>> ((r.getG rs2).extractLsb' 0 5).toNat)) ∧
    s.Retires (.sra c rd rs1 rs2) c
      (fun r => r.setG rd ((r.getG rs1).sshiftRight ((r.getG rs2).extractLsb' 0 5).toNat)) ∧
    s.Retires (.mul c rd rs1 rs2) c
      (fun r => r.setG rd (BitVec.ofNat 32 ((r.getG rs1).toNat * (r.getG rs2).toNat))) ∧
    s.Retires (.sel c rd rs1 rs2 p) c
      (fun r => r.setG rd (if r.getP (p.setWidth 5) = true then r.getG rs1 else r.getG rs2))

/-- Table 7.3, R166: the floating-point operations and conversions; a conversion whose rs2 is not zero raises ILLEGAL. -/
def Obligations.FloatOperationsWriteRd : Prop :=
  ∀ (s : State) (c : CarrelId) (rd rs1 rs2 : BitVec 5), s.Issues c 0x01 [rd, rs1, rs2] →
    s.Retires (.fadd c rd rs1 rs2) c (fun r => r.setG rd (fpAdd (r.getG rs1) (r.getG rs2))) ∧
    s.Retires (.fsub c rd rs1 rs2) c (fun r => r.setG rd (fpSub (r.getG rs1) (r.getG rs2))) ∧
    s.Retires (.fmul c rd rs1 rs2) c (fun r => r.setG rd (fpMul (r.getG rs1) (r.getG rs2))) ∧
    (rs2 = 0 →
      s.Retires (.fcvtif c rd rs1 rs2) c (fun r => r.setG rd (fpOfInt (r.getG rs1).toInt)) ∧
      s.Retires (.fcvtfi c rd rs1 rs2) c (fun r => r.setG rd (fpToInt (r.getG rs1))) ∧
      s.Retires (.ftobf c rd rs1 rs2) c (fun r => r.setG rd ((fpToBf (r.getG rs1)).setWidth 32))) ∧
    (rs2 ≠ 0 →
      s.Raises (.fcvtif c rd rs1 rs2) c 0x01 ∧ s.Raises (.fcvtfi c rd rs1 rs2) c 0x01 ∧
      s.Raises (.ftobf c rd rs1 rs2) c 0x01)

/-- Tables 1.2 and 7.3: a NaN operand of FADD, FSUB or FMUL gives the one NaN, converts to 0 and to bf16 0x7FC0, and
makes FCMPLT and FCMPLE false; −0 equals +0; subnormal operands count as zeros of their sign. -/
def Obligations.FloatSpecialValues : Prop :=
  ∀ a b : Word,
    (natBits a.toNat 23 8 = 255 ∧ natBits a.toNat 0 23 ≠ 0 →
      fpAdd a b = 0x7FC00000 ∧ fpAdd b a = 0x7FC00000 ∧ fpSub a b = 0x7FC00000 ∧ fpSub b a = 0x7FC00000 ∧
      fpMul a b = 0x7FC00000 ∧ fpMul b a = 0x7FC00000 ∧ fpToInt a = 0 ∧ fpToBf a = 0x7FC0 ∧
      fpLt a b = false ∧ fpLt b a = false ∧ fpLe a b = false ∧ fpLe b a = false) ∧
    (natBits a.toNat 23 8 = 0 ∧ natBits b.toNat 23 8 = 0 →
      fpLt a b = false ∧ fpLe a b = true ∧ fpToInt a = 0 ∧
      fpMul a b = BitVec.ofNat 32 (2 ^ 31 * ((natBits a.toNat 31 1 + natBits b.toNat 31 1) % 2)))

/-- Table 7.3, R164, R166: comparisons write p[rd], predicate operations combine predicates; p0 reads one and discards
writes; a predicate field above 7, or rs2 of PNOT not zero, raises ILLEGAL. -/
def Obligations.ComparisonsWritePredicates : Prop :=
  ∀ (s : State) (c : CarrelId) (pd rs1 rs2 : BitVec 5), s.Issues c 0x02 [rs1, rs2] →
    (pd.toNat < 8 →
      s.Retires (.cmpeq c pd rs1 rs2) c (fun r => r.setP pd (decide (r.getG rs1 = r.getG rs2))) ∧
      s.Retires (.cmplt c pd rs1 rs2) c (fun r => r.setP pd (decide ((r.getG rs1).toInt < (r.getG rs2).toInt))) ∧
      s.Retires (.cmpltu c pd rs1 rs2) c (fun r => r.setP pd (decide ((r.getG rs1).toNat < (r.getG rs2).toNat))) ∧
      s.Retires (.fcmplt c pd rs1 rs2) c (fun r => r.setP pd (fpLt (r.getG rs1) (r.getG rs2))) ∧
      s.Retires (.fcmple c pd rs1 rs2) c (fun r => r.setP pd (fpLe (r.getG rs1) (r.getG rs2)))) ∧
    (pd.toNat < 8 → rs1.toNat < 8 → rs2.toNat < 8 →
      s.Retires (.pand c pd rs1 rs2) c (fun r => r.setP pd (r.getP rs1 && r.getP rs2)) ∧
      s.Retires (.por c pd rs1 rs2) c (fun r => r.setP pd (r.getP rs1 || r.getP rs2))) ∧
    (pd.toNat < 8 → rs1.toNat < 8 → rs2 = 0 →
      s.Retires (.pnot c pd rs1 rs2) c (fun r => r.setP pd (!r.getP rs1))) ∧
    (8 ≤ pd.toNat →
      s.Raises (.cmpeq c pd rs1 rs2) c 0x01 ∧ s.Raises (.cmplt c pd rs1 rs2) c 0x01 ∧
      s.Raises (.cmpltu c pd rs1 rs2) c 0x01 ∧ s.Raises (.fcmplt c pd rs1 rs2) c 0x01 ∧
      s.Raises (.fcmple c pd rs1 rs2) c 0x01) ∧
    (8 ≤ pd.toNat ∨ 8 ≤ rs1.toNat ∨ 8 ≤ rs2.toNat →
      s.Raises (.pand c pd rs1 rs2) c 0x01 ∧ s.Raises (.por c pd rs1 rs2) c 0x01 ∧
      s.Raises (.pnot c pd rs1 rs2) c 0x01) ∧
    (rs2 ≠ 0 → s.Raises (.pnot c pd rs1 rs2) c 0x01)

/-- Table 7.3, R166: ADDI sign-extends, ANDI and ORI zero-extend, shifts take imm16[4:0], LUI places imm21[15:0] in the
upper half; imm16[15:5] of a shift and imm21[20:16] of LUI not zero raise ILLEGAL. -/
def Obligations.ImmediateOperationsWriteRd : Prop :=
  ∀ (s : State) (c : CarrelId) (rd rs1 : BitVec 5) (imm : BitVec 16) (imm21 : BitVec 21),
    (s.Issues c 0x04 [rd, rs1] → s.Retires (.addi c rd rs1 imm) c
      (fun r => r.setG rd (BitVec.ofInt 32 ((r.getG rs1).toInt + imm.toInt)))) ∧
    (s.Issues c 0x05 [rd, rs1] → s.Retires (.andi c rd rs1 imm) c
      (fun r => r.setG rd (r.getG rs1 &&& imm.setWidth 32))) ∧
    (s.Issues c 0x06 [rd, rs1] → s.Retires (.ori c rd rs1 imm) c
      (fun r => r.setG rd (r.getG rs1 ||| imm.setWidth 32))) ∧
    (s.Issues c 0x07 [rd, rs1] → if imm.toNat < 32 then
      s.Retires (.slli c rd rs1 imm) c (fun r => r.setG rd (r.getG rs1 <<< imm.toNat))
      else s.Raises (.slli c rd rs1 imm) c 0x01) ∧
    (s.Issues c 0x08 [rd, rs1] → if imm.toNat < 32 then
      s.Retires (.srli c rd rs1 imm) c (fun r => r.setG rd (r.getG rs1 >>> imm.toNat))
      else s.Raises (.srli c rd rs1 imm) c 0x01) ∧
    (s.Issues c 0x09 [rd, rs1] → if imm.toNat < 32 then
      s.Retires (.srai c rd rs1 imm) c (fun r => r.setG rd ((r.getG rs1).sshiftRight imm.toNat))
      else s.Raises (.srai c rd rs1 imm) c 0x01) ∧
    (s.Issues c 0x0A [rd] → if imm21.toNat < 65536 then
      s.Retires (.lui c rd imm21) c (fun r => r.setG rd (BitVec.ofNat 32 (imm21.toNat * 65536)))
      else s.Raises (.lui c rd imm21) c 0x01)

/-- R167: branches, JAL and JALR. A taken branch moves pc by 4 × offset16, another one moves it to the next instruction;
the target may be any address (R168). -/
def Obligations.BranchesAndJumpsMovePc : Prop :=
  ∀ (s : State) (c : CarrelId) (rd rs1 rs2 : BitVec 5) (off : BitVec 16) (imm21 : BitVec 21),
    let k := s.carrel c
    let goes (taken : Bool) : CarrelRegs :=
      { k.regs with pc := if taken then k.regs.pc + 4 * off.signExtend 32 else k.regs.pc + 4 }
    let jumps (i : Instr) (r : CarrelRegs) : Prop :=
      s.Fetched c i → exec i s = .next (s.setCarrel c { k with regs := r, ir := none })
    (s.Issues c 0x10 [rs1, rs2] → jumps (.beq c rs1 rs2 off) (goes (k.regs.getG rs1 == k.regs.getG rs2))) ∧
    (s.Issues c 0x11 [rs1, rs2] → jumps (.bne c rs1 rs2 off) (goes (k.regs.getG rs1 != k.regs.getG rs2))) ∧
    (s.Issues c 0x12 [] → if rs1.toNat < 8 ∧ rs2 = 0 then jumps (.bp c rs1 rs2 off) (goes (k.regs.getP rs1))
      else s.Raises (.bp c rs1 rs2 off) c 0x01) ∧
    (s.Issues c 0x13 [] → if rs1.toNat < 8 ∧ rs2 = 0 then jumps (.bnp c rs1 rs2 off) (goes (!k.regs.getP rs1))
      else s.Raises (.bnp c rs1 rs2 off) c 0x01) ∧
    (s.Issues c 0x14 [rd] → jumps (.jal c rd imm21)
      { k.regs.setG rd (k.regs.pc + 4) with pc := k.regs.pc + 4 * imm21.signExtend 32 }) ∧
    (s.Issues c 0x15 [rd, rs1] →
      let target := k.regs.getG rs1 + off.signExtend 32
      if target.toNat % 4 = 0 then
        jumps (.jalr c rd rs1 off) { k.regs.setG rd (k.regs.pc + 4) with pc := target }
      else s.Raises (.jalr c rd rs1 off) c 0x02)

/-- R168, R162, R188: the fetch at pc raises SRAM_RANGE at or above 0xC000 and SRAM_UE on an uncorrectable error; pc
holds the target; the word at an address below 0xC000 is fetched as four little-endian bytes; a pg of another major opcode raises
PG_MISMATCH, and an unassigned word ILLEGAL. -/
def Obligations.FetchReadsTheWordAtPc : Prop :=
  ∀ (s : State) (c : CarrelId) (ecc : Ecc), s.coreReady c = true →
    let k := s.carrel c
    let a := k.regs.pc.toNat
    let w : Word := BitVec.ofNat 32 (leNat (k.sram.read Memory.blank a 4))
    (0xC000 < a + 4 → s.Stops (.instructionFetch c ecc) c 0x03) ∧
    (a + 4 ≤ 0xC000 → ecc = .uncorrectable → Yields (exec (.instructionFetch c ecc) s) (fun t =>
      t.carrel c = k.raise 0x07 ∧ (t.folio c.folio).sramUe = satInc (s.folio c.folio).sramUe ∧ t.int.evSram = true)) ∧
    (a + 4 ≤ 0xC000 → ecc = .clean →
      (k.regs.pg.valid = true → natBits w.toNat 26 6 ≠ k.regs.pg.opcode.toNat →
        s.Stops (.instructionFetch c ecc) c 0x06) ∧
      (k.regs.pg.valid = false → wordLegal w = false → s.Stops (.instructionFetch c ecc) c 0x01) ∧
      ((k.regs.pg.valid = true → natBits w.toNat 26 6 = k.regs.pg.opcode.toNat) → wordLegal w = true →
        exec (.instructionFetch c ecc) s = .next (s.setCarrel c { k with ir := some w })))

/-- R188: on an issue whose pg names another opcode PG_MISMATCH comes first, whatever else is wrong with it: shown for an
instruction of every group of Table 7.2. R187: in a pure pass the reads of the core's own circumstances, DRAW and STCOND raise PURITY. -/
def Obligations.FaultsComeInOrder : Prop :=
  (∀ (s : State) (c : CarrelId) (a b d e : BitVec 5) (imm : BitVec 16) (off : BitVec 12) (mode : BitVec 6) (fn : BitVec 11)
    (size : BitVec 3) (mark : Bool) (ecc : Ecc) (env : LongEnv) (fl : List (Nat × Nat)),
    s.coreReady c = true → (s.carrel c).regs.pg.valid = true →
    let op := (s.carrel c).regs.pg.opcode
    (op ≠ 0x00 → s.Raises (.mul c a b d) c 0x06) ∧ (op ≠ 0x01 → s.Raises (.fcvtfi c a b d) c 0x06) ∧
    (op ≠ 0x02 → s.Raises (.pnot c a b d) c 0x06) ∧ (op ≠ 0x07 → s.Raises (.slli c a b imm) c 0x06) ∧
    (op ≠ 0x12 → s.Raises (.bp c a b imm) c 0x06) ∧ (op ≠ 0x15 → s.Raises (.jalr c a b imm) c 0x06) ∧
    (op ≠ 0x18 → s.Raises (.ldl c a b mark size off ecc) c 0x06) ∧
    (op ≠ 0x1A → s.Raises (.lds c a b mark size off ecc) c 0x06) ∧
    (op ≠ 0x1F → s.Raises (.stcond c a b d fn ecc) c 0x06) ∧
    (op ≠ 0x24 → s.Raises (.beatwait c a b d fn) c 0x06) ∧
    (op ≠ 0x28 → s.Raises (.mxload c a b d e mode ecc) c 0x06) ∧
    (op ≠ 0x29 → s.Raises (.mxpass c a b d e mode env fl) c 0x06) ∧
    (op ≠ 0x2C → s.Raises (.twalk c a b d e mode env) c 0x06) ∧
    (op ≠ 0x2D → s.Raises (.bmove c a b d e mode env) c 0x06) ∧
    (op ≠ 0x2E → s.Raises (.diff c a b d e mode env) c 0x06) ∧
    (op ≠ 0x30 → s.Raises (.rdsr c a b d) c 0x06)) ∧
  (∀ (s : State) (c : CarrelId) (rd rs1 rs2 : BitVec 5) (fn : BitVec 11) (ecc : Ecc),
    (s.carrel c).regs.st.pure_ = true →
    (s.Issues c 0x25 [rd] → s.Raises (.beatrd c rd 0 0 0) c 0x05) ∧
    (s.Issues c 0x30 [rd] →
      s.Raises (.rdsr c rd 0 0) c 0x05 ∧ s.Raises (.rdsr c rd 1 0) c 0x05 ∧ s.Raises (.rdsr c rd 2 0) c 0x05 ∧
      s.Raises (.rdtick c rd 0 0) c 0x05 ∧ s.Raises (.rdtick c rd 1 0) c 0x05 ∧ s.Raises (.draw c rd 0 0) c 0x05) ∧
    (2 ≤ fn.toNat % 4 → fn.toNat < 8 → rs1.toNat % 2 = 0 → (fn.toNat % 4 = 3 → rs2.toNat % 2 = 0) →
      s.Issues c 0x1F (rd :: rs1 :: (rs1 + 1) :: sizeRegs rs2 (condSize fn)) →
      s.Raises (.stcond c rd rs1 rs2 fn ecc) c 0x05))

/-- R169, R170, Table 7.4: LDL and STL of every size at g[rb] + offset as 32 bits. STL clears the reservations on the
granules it stores to (R244); a corrected word is counted (R416); an uncorrectable one raises SRAM_UE. -/
def Obligations.LocalLoadsAndStores : Prop :=
  ∀ (s : State) (c : CarrelId) (rt rb : BitVec 5) (size : BitVec 3) (off : BitVec 12) (ecc : Ecc),
    size.toNat ≠ 7 → sizeRegOk rt size = true →
    let k := s.carrel c
    let a := (k.regs.getG rb + off.signExtend 32).toNat
    let n := sizeBytes size
    a + n ≤ 0xC000 → (a % n = 0 ∨ k.regs.st.piecewise = true) → k.acquiring = false →
    k.ownGranuleBusy c a n = false →
    (s.Issues c 0x18 (rb :: sizeRegs rt size) →
      (ecc = .clean → s.Retires (.ldl c rt rb false size off ecc) c
        (fun r => r.load rt size (k.sram.read Memory.blank a n))) ∧
      (∀ w, ecc = .corrected w → s.Fetched c (.ldl c rt rb false size off ecc) →
        Yields (exec (.ldl c rt rb false size off ecc) s) (fun t =>
        t.carrel c = { k with regs := { k.regs.load rt size (k.sram.read Memory.blank a n) with pc := k.regs.pc + 4 },
                              ir := none } ∧
        (t.folio c.folio).sramCe = satAdd (s.folio c.folio).sramCe w)) ∧
      (ecc = .uncorrectable → s.Fetched c (.ldl c rt rb false size off ecc) →
        Yields (exec (.ldl c rt rb false size off ecc) s) (fun t =>
        t.carrel c = k.raise 0x07 ∧ (t.folio c.folio).sramUe = satInc (s.folio c.folio).sramUe))) ∧
    (s.Issues c 0x19 (rb :: sizeRegs rt size) → ecc = .clean → size.toNat ≠ 4 → size.toNat ≠ 5 →
      s.Fetched c (.stl c rt rb false size off ecc) →
      exec (.stl c rt rb false size off ecc) s = .next ((s.clearGranules c.key a n).setCarrel c
        { k with sram := k.sram.write Memory.blank a (k.regs.storeBytes rt size),
                 regs := { k.regs with pc := k.regs.pc + 4 }, ir := none }))

/-- R169, R170, R134, Table 7.4: LDL and STL raise ILLEGAL for a mark, for size 0b111, for a zero-extending store and for
an odd pair or quad; in exact mode a misaligned access raises MISALIGNED; an access that reaches 0xC000 raises
SRAM_RANGE. -/
def Obligations.LocalAccessFaults : Prop :=
  ∀ (s : State) (c : CarrelId) (rt rb : BitVec 5) (mark : Bool) (size : BitVec 3) (off : BitVec 12) (ecc : Ecc),
    let k := s.carrel c
    let a := (k.regs.getG rb + off.signExtend 32).toNat
    let n := sizeBytes size
    let good := mark = false ∧ size.toNat ≠ 7 ∧ sizeRegOk rt size = true
    (s.Issues c 0x18 (rb :: sizeRegs rt size) →
      (¬good → s.Raises (.ldl c rt rb mark size off ecc) c 0x01) ∧
      (good → a % n ≠ 0 → k.regs.st.piecewise = false → s.Raises (.ldl c rt rb mark size off ecc) c 0x02) ∧
      (good → (a % n = 0 ∨ k.regs.st.piecewise = true) → 0xC000 < a + n →
        s.Raises (.ldl c rt rb mark size off ecc) c 0x03)) ∧
    (s.Issues c 0x19 (rb :: sizeRegs rt size) →
      (¬good ∨ size.toNat = 4 ∨ size.toNat = 5 → s.Raises (.stl c rt rb mark size off ecc) c 0x01) ∧
      (good → size.toNat ≠ 4 → size.toNat ≠ 5 → a % n ≠ 0 → k.regs.st.piecewise = false →
        s.Raises (.stl c rt rb mark size off ecc) c 0x02) ∧
      (good → size.toNat ≠ 4 → size.toNat ≠ 5 → (a % n = 0 ∨ k.regs.st.piecewise = true) → 0xC000 < a + n →
        s.Raises (.stl c rt rb mark size off ecc) c 0x03))

/-- Tables 7.4 and 7.5, R139, R170 to R173: a load, reserved load or store whose pieces all lie in the carrel's own stacks
cell is performed at its turn at the port; a reserved load records its granule and makes an entry at the cell (R243, R244), a
store drops the carrel's own reservation and clears the entries of the granules it stores to. Where a remote request waits at
the port and has the turn, the access waits (log entry 180). Table 18.1: a bond-link transfer that fails its check up to four
times is repeated and counted, and the fifth failure raises STACKS_UE. -/
def Obligations.OwnCellAccesses : Prop :=
  ∀ (s : State) (c : CarrelId) (rt rb : BitVec 5) (mark : Bool) (size : BitVec 3) (off : BitVec 12)
    (ps : List (BitVec 48 × Nat × Nat)),
    let k := s.carrel c
    let n := sizeBytes size
    let call := k.regs.callNumber rb off
    let o := natBits call.toNat 0 23
    let uses := rb :: (rb + 1) :: sizeRegs rt size
    let lds : Instr := .lds c rt rb mark size off .clean
    let ld2 : Instr := .ld2 c rt rb mark size off .clean
    let ldres : Instr := .ldres c rt rb mark size off .clean
    let sts : Instr := .sts c rt rb mark size off .clean
    let st2 : Instr := .st2 c rt rb mark size off .clean
    let turn := k.cellTurn = true ∨ s.remoteWaits c = false
    let waits := s.setCarrel c { k with cellWait := true }
    let does (i : Instr) (op : BitVec 6) (t : State) : Prop := s.Issues c op uses → s.Fetched c i →
      (turn → exec i s = .next t) ∧ (¬turn → exec i s = .next waits)
    rb.toNat % 2 = 0 → sizeRegOk rt size = true → k.acquiring = false →
    (∀ q ∈ ps, s.ownCell c q = true) →
    (s.Reaches c rb ps false → callPieces k.regs.st.piecewise call n = some ps → k.loadCount + ps.length ≤ 8 →
      let loaded := s.setCarrel c { k with
        regs := { k.regs.load rt size (k.stackMem.read Memory.blank o n) with pc := k.regs.pc + 4 }, reserved := none,
        ir := none, cellTurn := false, cellWait := false }
      (size.toNat < 6 → does lds 0x1A loaded) ∧ (size.toNat = 6 → does ld2 0x1C loaded) ∧
      (size.toNat < 6 → s.Issues c 0x1A uses → s.Fetched c lds → turn → ∀ f,
        (f ≤ 4 → Yields (exec (.lds c rt rb mark size off (.retried f)) s) (fun t => t.carrel c = loaded.carrel c ∧
          (t.folio c.folio).bondRetry = satAdd (s.folio c.folio).bondRetry f)) ∧
        (5 ≤ f → Yields (exec (.lds c rt rb mark size off (.retried f)) s) (fun t =>
          t.carrel c = { k with cellTurn := false, cellWait := false }.raise 0x08 ∧
          (t.folio c.folio).bondRetry = satAdd (s.folio c.folio).bondRetry 4 ∧
          (t.folio c.folio).stacksUe = satInc (s.folio c.folio).stacksUe)))) ∧
    (s.Reaches c rb ps false → callPieces false call n = some ps → k.loadCount + ps.length ≤ 8 →
      (size.toNat = 2 ∨ size.toNat = 3) → s.Issues c 0x1E uses → s.Fetched c ldres →
      (¬turn → exec ldres s = .next waits) ∧
      (turn → Yields (exec ldres s) (fun t =>
        t.carrel c = { k with
          regs := { k.regs.load rt size (k.stackMem.read Memory.blank o n) with pc := k.regs.pc + 4 },
          reserved := some ⟨call.toNat / 64, size⟩, ir := none, cellTurn := false, cellWait := false } ∧
        ⟨o / 64, c.requester s.ownWafer, k.ticket⟩ ∈ (t.home (2 ^ 20 + c.key)).entries))) ∧
    (s.Reaches c rb ps true → callPieces k.regs.st.piecewise call n = some ps → k.stores.length + ps.length ≤ 16 →
      (mark = true → k.loads = [] ∧ k.stores = []) →
      let stored := (s.clearGranules (2 ^ 20 + c.key) o n).setCarrel c
        { k with stackMem := k.stackMem.write Memory.blank o (k.regs.storeBytes rt size), reserved := none,
                 regs := { k.regs with pc := k.regs.pc + 4 }, ir := none, cellTurn := false, cellWait := false }
      (size.toNat < 4 → does sts 0x1B stored) ∧ (size.toNat = 6 → does st2 0x1D stored))

/-- R172, R173, R214, R230: a load, reserved load or store with a piece elsewhere sends READ (type 1), RESV (3) or WRITE
(2) packets, one a piece with a tag of its own, toward its router, and goes on: no register changes until the reply. What is
awaited stands under the home's own name, WSLOT 0 for a piece on the wafer itself (R229, R236). -/
def Obligations.RemoteAccessesSendPackets : Prop :=
  ∀ (s : State) (c : CarrelId) (rt rb : BitVec 5) (mark : Bool) (size : BitVec 3) (off : BitVec 12) (ecc : Ecc)
    (ps : List (BitVec 48 × Nat × Nat)),
    let k := s.carrel c
    let n := sizeBytes size
    let call := k.regs.callNumber rb off
    let uses := rb :: (rb + 1) :: sizeRegs rt size
    let awaits := awaiting k.nextTag (ps.map (s.ownPiece c))
    let does (i : Instr) (op : BitVec 6) (t : State) : Prop :=
      s.Issues c op uses → s.Fetched c i → exec i s = .next t
    rb.toNat % 2 = 0 → sizeRegOk rt size = true → k.acquiring = false → ps.all (s.ownCell c) = false →
    let sends (ty : BitVec 4) (bs : List Byte) : State :=
      s.inject c.alcove (rowPort c.dport) (s.requests c ty size mark n ps bs)
    let waits (held : Option Reservation) : Carrel := { k with
      regs := { k.regs with pc := k.regs.pc + 4 }, reserved := held, nextTag := k.nextTag + BitVec.ofNat 10 ps.length,
      loads := k.loads ++ [{ pieces := awaits, buf := List.replicate n 0, reg := rt, size := size,
                             isCond := false, acquire := mark, space := callSpace call }], ir := none }
    (s.Reaches c rb ps false → callPieces k.regs.st.piecewise call n = some ps → k.loadCount + ps.length ≤ 8 →
      (size.toNat < 6 → does (.lds c rt rb mark size off ecc) 0x1A ((sends 1 []).setCarrel c (waits none))) ∧
      (size.toNat = 6 → does (.ld2 c rt rb mark size off ecc) 0x1C ((sends 1 []).setCarrel c (waits none)))) ∧
    (s.Reaches c rb ps false → callPieces false call n = some ps → k.loadCount + ps.length ≤ 8 →
      (size.toNat = 2 ∨ size.toNat = 3) →
        does (.ldres c rt rb mark size off ecc) 0x1E ((sends 3 []).setCarrel c (waits (some ⟨call.toNat / 64, size⟩)))) ∧
    (s.Reaches c rb ps true → callPieces k.regs.st.piecewise call n = some ps → k.stores.length + ps.length ≤ 16 →
      (mark = true → k.loads = [] ∧ k.stores = []) →
      let stored := (sends 2 (k.regs.storeBytes rt size)).setCarrel c { k with
        regs := { k.regs with pc := k.regs.pc + 4 }, reserved := none, ir := none,
        nextTag := k.nextTag + BitVec.ofNat 10 ps.length,
        stores := k.stores ++ awaits.map (fun q => ⟨q.tag, callSpace call, q.granule⟩) }
      (size.toNat < 4 → does (.sts c rt rb mark size off ecc) 0x1B stored) ∧
      (size.toNat = 6 → does (.st2 c rt rb mark size off ecc) 0x1D stored))

/-- Table 10.5, R243, R245: a STCOND without the reservation of its granule and size fails at the carrel, sends nothing and
sets g[rd] to 1; on the carrel's own cell, at its turn at the port, it is performed and sets g[rd] to 0 when the home holds
the requester's entry and its turn has come, and otherwise stores nothing, sets g[rd] to 1 and queues the requester,
whatever SECDED finds in the location; elsewhere it sends COND. Its turn and a failed condition on a bad word are deduced
(log entries 180 and 28). -/
def Obligations.ConditionalStoreOutcomes : Prop :=
  ∀ (s : State) (c : CarrelId) (rd rs1 rs2 : BitVec 5) (fn : BitVec 11) (ecc : Ecc),
    let k := s.carrel c
    let size := condSize fn
    let n := sizeBytes size
    let call := k.regs.callNumber rs1 0
    let o := natBits call.toNat 0 23
    let req := c.requester s.ownWafer
    let home := 2 ^ 20 + c.key
    let stcond (ecc : Ecc) : Instr := .stcond c rd rs1 rs2 fn ecc
    2 ≤ fn.toNat % 4 → fn.toNat < 8 → rs1.toNat % 2 = 0 → sizeRegOk rs2 size = true → call.toNat % n = 0 →
    s.Issues c 0x1F (rd :: rs1 :: (rs1 + 1) :: sizeRegs rs2 size) → s.Fetched c (stcond ecc) → k.regs.st.pure_ = false →
    s.Reaches c rs1 [(call, n, 0)] true → k.acquiring = false → k.loadCount < 8 →
    (fn.getLsbD 2 = true → k.loads = [] ∧ k.stores = []) →
    (k.reserved ≠ some ⟨call.toNat / 64, size⟩ → s.Retires (stcond ecc) c (fun r => r.setG rd 1)) ∧
    (k.reserved = some ⟨call.toNat / 64, size⟩ →
      (s.ownCell c (call, n, 0) = true → k.cellTurn = true ∨ s.remoteWaits c = false →
        ((s.home home).condOk (o / 64) req k.ticket = true →
          Yields (exec (stcond .clean) s) (fun t =>
            t.carrel c = { k with
              regs := { k.regs.setG rd 0 with pc := k.regs.pc + 4 }, reserved := none, ir := none, cellTurn := false,
              cellWait := false, stackMem := k.stackMem.write Memory.blank o (k.regs.storeBytes rs2 size) } ∧
            (t.home home).entries = (s.home home).entries.filter (fun e => e.granule != o / 64))) ∧
        ((s.home home).condOk (o / 64) req k.ticket = false →
          Yields (exec (stcond ecc) s) (fun t =>
            t.carrel c = { k with regs := { k.regs.setG rd 1 with pc := k.regs.pc + 4 }, reserved := none, ir := none,
                                  cellTurn := false, cellWait := false } ∧
            (t.home home).entries = (s.home home).entries ∧
            t.home home = (s.home home).enqueue (o / 64) req s.ext))) ∧
      (s.ownCell c (call, n, 0) = false →
        exec (stcond ecc) s = .next ((s.inject c.alcove (rowPort c.dport)
          (s.requests c 4 size (fn.getLsbD 2) n [(call, n, 0)] (k.regs.storeBytes rs2 size))).setCarrel c { k with
            regs := { k.regs with pc := k.regs.pc + 4 }, reserved := none, nextTag := k.nextTag + 1, ir := none,
            loads := k.loads ++ [{ pieces := awaiting k.nextTag [s.ownPiece c (call, n, 0)], buf := [], reg := rd,
                                   size := size, isCond := true, acquire := false, space := callSpace call }] })))

/-- R172, R173, R175, R239: what waits has not issued and leaves the state as it was: a pending reply on a register used,
a FENCE with accesses outstanding, a BEATWAIT before its beat. A FENCE issues once every earlier access has completed; a
BEATWAIT issues at its beat, not before, and after it sets st.OVERRUN, stops the carrel and reports an overrun; a FENCE field
not zero raises ILLEGAL, as does BEATWAIT's rd or rs2. -/
def Obligations.FencesAndBeatwaitsWaitAndIssue : Prop :=
  ∀ (s : State) (c : CarrelId) (rd rs1 rs2 : BitVec 5) (fields : BitVec 26),
    let k := s.carrel c
    let n := (k.regs.getG rs1).toNat
    let wait : Instr := .beatwait c 0 rs1 0 0
    (s.coreReady c = true → k.regs.pg.valid = false → k.long = none →
      (k.regPending rd = true ∨ k.regPending rs1 = true ∨ k.regPending rs2 = true) →
      exec (.add c rd rs1 rs2) s = .next s ∧ exec (.fmul c rd rs1 rs2) s = .next s) ∧
    (s.Issues c 0x20 [] →
      (fields ≠ 0 → s.Raises (.fence c fields) c 0x01) ∧
      (k.loads ≠ [] ∨ k.stores ≠ [] → exec (.fence c 0) s = .next s) ∧
      (k.loads = [] → k.stores = [] → s.Retires (.fence c 0) c (fun r => r))) ∧
    (s.Issues c 0x24 [] → rd ≠ 0 ∨ rs2 ≠ 0 → s.Raises (.beatwait c rd rs1 rs2 0) c 0x01) ∧
    (s.Issues c 0x24 [rs1] →
      (k.beat < n → exec wait s = .next s) ∧
      (k.beat = n → s.Retires wait c (fun r => r)) ∧
      (n < k.beat → s.Fetched c wait → exec wait s = .next (s.setCarrel c { k with
        regs := { k.regs with st := { k.regs.st with overrun := true } }, run := .overrun, repOverrun := true,
        ir := none })))

/-- R176: BEATRD gives the low 32 bits of the beat count; rs1 and rs2 must be zero. -/
def Obligations.BeatrdReadsTheBeatCount : Prop :=
  ∀ (s : State) (c : CarrelId) (rd rs1 rs2 : BitVec 5), s.Issues c 0x25 [rd] → (s.carrel c).regs.st.pure_ = false →
    (rs1 = 0 → rs2 = 0 →
      s.Retires (.beatrd c rd rs1 rs2 0) c (fun r => r.setG rd (BitVec.ofNat 32 (s.carrel c).beat))) ∧
    (rs1 ≠ 0 ∨ rs2 ≠ 0 → s.Raises (.beatrd c rd rs1 rs2 0) c 0x01)

/-- R186, R187: the system instructions outside pure passes. DRAW's value is a free value: whatever the entropy source
gives; the model's counter of free values moves on. After EXIT the carrel issues nothing more; the report is made at
once where no store awaits its acknowledgement. -/
def Obligations.SystemInstructionsReadAndWrite : Prop :=
  ∀ (s : State) (c : CarrelId) (rd rs1 rs2 : BitVec 5), 
    let k := s.carrel c
    (s.Issues c 0x30 [rd] → k.regs.st.pure_ = false →
      s.Retires (.rdsr c rd 0 0) c (fun r => r.setG rd r.st.word) ∧
      s.Retires (.rdsr c rd 1 0) c (fun r => r.setG rd r.rc.word) ∧
      s.Retires (.rdsr c rd 2 0) c (fun r => r.setG rd r.pg.word) ∧
      (3 ≤ rs1.toNat ∨ rs2 ≠ 0 → s.Raises (.rdsr c rd rs1 rs2) c 0x01) ∧
      s.Retires (.rdtick c rd 0 0) c (fun r => r.setG rd (BitVec.ofNat 32 s.clk.tick.toNat)) ∧
      s.Retires (.rdtick c rd 1 0) c (fun r => r.setG rd (BitVec.ofNat 32 (s.clk.tick.toNat / 2 ^ 32))) ∧
      (s.Fetched c (.draw c rd 0 0) → Yields (exec (.draw c rd 0 0) s) (fun t => t.free = s.free + 1 ∧
        t.carrel c =
          { k with regs := { k.regs.setG rd (Config.entropy s.free) with pc := k.regs.pc + 4 }, ir := none }))) ∧
    (s.Issues c 0x30 [rd] → rs1.toNat < 16 →
      s.Retires (.aget c rd rs1 0 false) c (fun r => r.setG rd (BitVec.ofNat 32 (r.getA rs1.toNat).toNat)) ∧
      s.Retires (.aget c rd rs1 0 true) c
        (fun r => r.setG rd (BitVec.ofInt 32 ((r.getA rs1.toNat).toInt / 2 ^ 32)))) ∧
    (s.Issues c 0x30 [rs1, rs2] → rd.toNat < 16 → s.Retires (.aset c rd rs1 rs2) c
      (fun r => r.setA rd.toNat ((r.getG rs2).extractLsb' 0 16 ++ r.getG rs1))) ∧
    (s.Issues c 0x30 [rd] → 16 ≤ rs1.toNat → s.Raises (.aget c rd rs1 rs2 false) c 0x01) ∧
    (s.Issues c 0x30 [rs1, rs2] → 16 ≤ rd.toNat → s.Raises (.aset c rd rs1 rs2) c 0x01) ∧
    (s.Issues c 0x30 [] → s.Fetched c (.exit c 0 0 0) →
      let t := s.setCarrel c { k with
        run := .exited, exitDone := true, repExited := k.stores.isEmpty, regs := { k.regs with pc := k.regs.pc + 4 },
        ir := none }
      exec (.exit c 0 0 0) s = .next t ∧ ∀ rd rs1 rs2, exec (.add c rd rs1 rs2) t = .next t)

/-- R178, Table 7.6, R180: MXLOAD fills the tile (256 or 128 bytes) or the accumulators, MXCLR clears every accumulator,
MXDRAIN writes them by kind and changes none; a base that is not a multiple of 16 raises MISALIGNED. -/
def Obligations.MatrixLoadDrainClear : Prop :=
  ∀ (s : State) (c : CarrelId) (rs1 rs2 : BitVec 5) (mode : BitVec 6),
    let k := s.carrel c
    let a := (k.regs.getG rs1).toNat
    (s.Issues c 0x28 [rs1] → k.unitHeld c = false →
      (mode.toNat < 4 → a % 16 ≠ 0 → s.Raises (.mxload c 0 rs1 0 0 mode .clean) c 0x02) ∧
      (4 ≤ mode.toNat → s.Raises (.mxload c 0 rs1 0 0 mode .clean) c 0x01) ∧
      (a % 16 = 0 → a + 256 ≤ 0xC000 → s.Retires (.mxload c 0 rs1 0 0 0 .clean) c
        (fun r => { r with tile := r.tile.write Memory.blank 0 (k.sram.read Memory.blank a 256) })) ∧
      (a % 16 = 0 → a + 128 ≤ 0xC000 → s.Retires (.mxload c 0 rs1 0 0 1 .clean) c
        (fun r => { r with tile := r.tile.write Memory.blank 0 (k.sram.read Memory.blank a 128) })) ∧
      (a % 16 = 0 → a + 96 ≤ 0xC000 → s.Retires (.mxload c 0 rs1 0 0 2 .clean) c
        (fun r => { r with a := Vector.ofFn (fun j : Fin 16 =>
          BitVec.ofNat 48 (leNat (k.sram.read Memory.blank (a + 6 * j.val) 6))) })) ∧
      (a % 16 = 0 → a + 32 ≤ 0xC000 → s.Retires (.mxload c 0 rs1 0 0 3 .clean) c
        (fun r => { r with a := Vector.ofFn (fun j : Fin 16 =>
          if j.val < 8 then BitVec.ofNat 48 (leNat (k.sram.read Memory.blank (a + 4 * j.val) 4)) else r.a[j.val]) }))) ∧
    (s.Issues c 0x2B [] → s.Retires (.mxclr c 0) c (fun r => { r with a := Vector.replicate 16 0 })) ∧
    (s.Issues c 0x2A [rs1, rs2] → k.unitHeld c = false → mode.toNat < 16 → mode.toNat % 8 < 6 →
      let bs := k.regs.drain (mode.toNat % 8) ((k.regs.getG rs2).toNat % 64) (mode.getLsbD 3)
      (a % 16 ≠ 0 → s.Raises (.mxdrain c 0 rs1 rs2 0 mode .clean) c 0x02) ∧
      (a % 16 = 0 → a + bs.length ≤ 0xC000 → s.Fetched c (.mxdrain c 0 rs1 rs2 0 mode .clean) →
        exec (.mxdrain c 0 rs1 rs2 0 mode .clean) s = .next ((s.clearGranules c.key a bs.length).setCarrel c
          { k with sram := k.sram.write Memory.blank a bs, regs := { k.regs with pc := k.regs.pc + 4 }, ir := none })))

/-- R179: MXPASS mode 0 (int8 dense), with nothing that interrupts it, adds Σ x × T over all its elements to each
accumulator modulo 2^48, leaves memory, g, p and the tile as they were, clears pg and moves pc on. R179: MXPASS mode 2 (int8 delta) adds (NEW − OLD) × W for every change entry, modulo 2^48. -/
def Obligations.MxpassAccumulates : Prop :=
  (∀ (s : State) (c : CarrelId) (rs1 rs2 : BitVec 5),
    let k := s.carrel c
    let a := (k.regs.getG rs1).toNat
    let n := (k.regs.getG rs2).toNat
    s.Issues c 0x29 [rs1, rs2, 0] → s.Fetched c (.mxpass c 0 rs1 rs2 0 0 LongEnv.quiet []) → k.unitHeld c = false →
    k.regs.pg.valid = false → a % 16 = 0 → a + 16 * n ≤ 0xC000 →
    exec (.mxpass c 0 rs1 rs2 0 0 LongEnv.quiet []) s = .next (s.setCarrel c
      { k with ir := none, regs := { k.regs with
          pg := {}, pc := k.regs.pc + 4,
          a := Vector.ofFn (fun j : Fin 16 => BitVec.ofInt 48 (k.regs.a[j.val].toInt +
            ((List.range n).map (fun i => ((List.range 16).map (fun t =>
              sramI8 k.sram (a + 16 * i + t) * sramI8 k.regs.tile (16 * t + j.val))).sum)).sum)) } })) ∧
  (∀ (s : State) (c : CarrelId) (rs1 rs2 rs3 : BitVec 5),
    let k := s.carrel c
    let a := (k.regs.getG rs1).toNat
    let n := (k.regs.getG rs2).toNat
    let w := (k.regs.getG rs3).toNat
    let e (i : Nat) : Nat := leNat (k.sram.read Memory.blank (a + 4 + 4 * i) 4)
    s.Issues c 0x29 [rs1, rs2, rs3] → s.Fetched c (.mxpass c 0 rs1 rs2 rs3 2 LongEnv.quiet []) → k.unitHeld c = false →
    k.regs.pg.valid = false → a % 4 = 0 → w % 16 = 0 →
    a + 4 + 4 * n ≤ 0xC000 → (∀ i < n, w + 16 * (e i % 65536) + 16 ≤ 0xC000) →
    exec (.mxpass c 0 rs1 rs2 rs3 2 LongEnv.quiet []) s = .next (s.setCarrel c
      { k with ir := none, regs := { k.regs with
          pg := {}, pc := k.regs.pc + 4,
          a := Vector.ofFn (fun j : Fin 16 => BitVec.ofInt 48 (k.regs.a[j.val].toInt +
            ((List.range n).map (fun i =>
              ((BitVec.ofNat 8 (e i / 2 ^ 24)).toInt - (BitVec.ofNat 8 (e i / 2 ^ 16)).toInt) *
                sramI8 k.sram (w + 16 * (e i % 65536) + j.val))).sum)) } }))

/-- R182, R183: BMOVE, with nothing that interrupts it, moves every granule; each byte of the target range is the byte of
the source at the same place, every other byte of SRAM and of the stacks cell is as it was, pg is cleared and pc moves on. -/
def Obligations.BmoveCopiesGranules : Prop :=
  ∀ (s : State) (c : CarrelId) (rs1 rs2 rs3 : BitVec 5) (toStacks : Bool),
    let k := s.carrel c
    let a := (k.regs.getG rs1).toNat
    let n := (k.regs.getG rs2).toNat
    let o := (k.regs.getG rs3).toNat
    let bmove : Instr := .bmove c 0 rs1 rs2 rs3 (if toStacks then 1 else 0) LongEnv.quiet
    s.Issues c 0x2D [rs1, rs2, rs3] → s.Fetched c bmove → k.unitHeld c = false → k.regs.pg.valid = false →
    (k.cellTurn = true ∨ s.remoteWaits c = false) →
    a % 64 = 0 → o % 64 = 0 → a + 64 * n ≤ 0xC000 → o + 64 * n ≤ 0x500000 →
    (∀ i < n, s.window c (stacksCall c (o + 64 * i)) 64 toStacks ≠ .outside) →
    Yields (exec bmove s) (fun t =>
      let k' := t.carrel c
      k'.regs = { k.regs with pg := {}, pc := k.regs.pc + 4 } ∧ k'.reserved = none ∧
      (∀ x, k'.sram.byte Memory.blank x =
        if toStacks = false ∧ a ≤ x ∧ x < a + 64 * n then k.stackMem.byte Memory.blank (o + (x - a))
        else k.sram.byte Memory.blank x) ∧
      (∀ x, k'.stackMem.byte Memory.blank x =
        if toStacks = true ∧ o ≤ x ∧ x < o + 64 * n then k.sram.byte Memory.blank (a + (x - o))
        else k.stackMem.byte Memory.blank x))

/-- R181: TWALK, with nothing that interrupts it, walks one tree after another; where no element faults, memory is what
they leave, pg is cleared and pc moves on. Case of one tree of depth 1 in dense mode: the leaf of the branch that the
comparison takes is copied to LEAVES. -/
def Obligations.TwalkCopiesLeaves : Prop :=
  ∀ (s : State) (c : CarrelId) (rs1 rs2 rs3 : BitVec 5) (mode : BitVec 6),
    let k := s.carrel c
    let n := (k.regs.getG rs2).toNat
    let desc := (k.regs.getG rs1).toNat
    s.Issues c 0x2C [rs1, rs2, rs3] → s.Fetched c (.twalk c 0 rs1 rs2 rs3 mode LongEnv.quiet) → k.unitHeld c = false →
    k.regs.pg.valid = false → mode.toNat < 2 →
    (mode.toNat = 0 → rs3 = 0) →
    (∀ m, twalkMemory k.sram desc (k.regs.getG rs3).toNat (mode == 1) n = some m →
      Yields (exec (.twalk c 0 rs1 rs2 rs3 mode LongEnv.quiet) s) (fun t =>
        t.carrel c = { k with ir := none, sram := m, regs := { k.regs with pg := {}, pc := k.regs.pc + 4 } })) ∧
    (∀ node v : Nat, mode = 0 → n = 1 → desc % 16 = 0 → desc + 16 ≤ 0xC000 →
      let d := treeDesc k.sram desc
      d.zero = 0 → d.forest % 8 = 0 → d.features % 4 = 0 → d.leaves % 4 = 0 → d.stride % 8 = 0 →
      d.forest + 24 ≤ 0xC000 → d.leaves + 4 ≤ 0xC000 → natBits (sramNat k.sram d.forest 8) 0 4 = 1 →
      node = sramNat k.sram (d.forest + 8) 8 → d.features + 4 * (node % 4096) + 4 ≤ 0xC000 →
      v = sramNat k.sram (d.features + 4 * (node % 4096)) 4 → natBits node 12 1 = 0 →
      let right := (BitVec.ofNat 32 (node / 2 ^ 32)).toInt < (BitVec.ofNat 32 v).toInt ∨
        (BitVec.ofNat 32 (node / 2 ^ 32) = BitVec.ofNat 32 v ∧ natBits node 13 1 = 1)
      Yields (exec (.twalk c 0 rs1 rs2 rs3 mode LongEnv.quiet) s) (fun t =>
        (right → (t.carrel c).sram =
          k.sram.write Memory.blank d.leaves (k.sram.read Memory.blank (d.forest + 20) 4)) ∧
        (¬right → (t.carrel c).sram =
          k.sram.write Memory.blank d.leaves (k.sram.read Memory.blank (d.forest + 16) 4))))

/-- R184, R185: DIFF, with nothing that interrupts it, compares its groups one after another; where none faults, the list
and COUNT stand in SRAM, g[rd] takes the count, pg is cleared and pc moves on. Groups that are equal leave a count of 0. -/
def Obligations.DiffListsChanges : Prop :=
  ∀ (s : State) (c : CarrelId) (rd rs1 rs2 rs3 : BitVec 5) (mode : BitVec 6),
    let k := s.carrel c
    let a := (k.regs.getG rs1).toNat
    let n := (k.regs.getG rs2).toNat
    let b := (k.regs.getG rs3).toNat
    let base := (k.regs.getG rd).toNat
    s.Issues c 0x2E [rd, rs1, rs2, rs3] → s.Fetched c (.diff c rd rs1 rs2 rs3 mode LongEnv.quiet) →
    k.unitHeld c = false → k.regs.pg.valid = false → mode.toNat < 3 →
    base % 4 = 0 → base + 4 ≤ 0xC000 →
    (∀ m count, diffMemory k.sram a b base (2 ^ mode.toNat) n = some (m, count) →
      Yields (exec (.diff c rd rs1 rs2 rs3 mode LongEnv.quiet) s) (fun t =>
        (t.carrel c).sram = m.write Memory.blank base (leBytes 4 count) ∧
        (t.carrel c).regs =
          { k.regs.setG rd (BitVec.ofNat 32 count) with pg := {}, pc := k.regs.pc + 4 })) ∧
    (a % 16 = 0 → b % 16 = 0 → a + 16 * n ≤ 0xC000 → b + 16 * n ≤ 0xC000 →
      (∀ x < 16 * n, k.sram.byte Memory.blank (a + x) = k.sram.byte Memory.blank (b + x)) →
      Yields (exec (.diff c rd rs1 rs2 rs3 mode LongEnv.quiet) s) (fun t => (t.carrel c).regs.getG rd = 0))

/-- What an instruction that only reads and writes registers leaves as it was, for every instruction of the scalar group
and every outcome: everything where another word stands fetched, and else all of the state but the one carrel, and of that carrel memory, accumulators, the accesses under way,
every g register but rd, and every predicate but the one named. -/
def Obligations.ScalarInstructionsFrame : Prop :=
  ∀ (s t : State) (c : CarrelId) (rd rs1 rs2 : BitVec 5) (p : BitVec 3) (imm : BitVec 16) (imm21 : BitVec 21) (i : Instr),
    i ∈ [Instr.add c rd rs1 rs2, .sub c rd rs1 rs2, .and c rd rs1 rs2, .or c rd rs1 rs2, .xor c rd rs1 rs2,
      .sll c rd rs1 rs2, .srl c rd rs1 rs2, .sra c rd rs1 rs2, .mul c rd rs1 rs2, .sel c rd rs1 rs2 p,
      .fadd c rd rs1 rs2, .fsub c rd rs1 rs2, .fmul c rd rs1 rs2, .fcvtif c rd rs1 rs2, .fcvtfi c rd rs1 rs2,
      .ftobf c rd rs1 rs2, .cmpeq c rd rs1 rs2, .cmplt c rd rs1 rs2, .cmpltu c rd rs1 rs2, .fcmplt c rd rs1 rs2,
      .fcmple c rd rs1 rs2, .pand c rd rs1 rs2, .por c rd rs1 rs2, .pnot c rd rs1 rs2, .addi c rd rs1 imm,
      .andi c rd rs1 imm, .ori c rd rs1 imm, .slli c rd rs1 imm, .srli c rd rs1 imm, .srai c rd rs1 imm,
      .lui c rd imm21, .jal c rd imm21, .jalr c rd rs1 imm, .beq c rs1 rs2 imm, .bne c rs1 rs2 imm, .bp c rs1 rs2 imm,
      .bnp c rs1 rs2 imm] →
    exec i s = .next t →
    let k := s.carrel c
    let k' := t.carrel c
    (¬s.Fetched c i → t = s) ∧
    { t with carrels := s.carrels } = s ∧ (∀ d, d ≠ c → t.carrel d = s.carrel d) ∧
    k'.sram = k.sram ∧ k'.stackMem = k.stackMem ∧ k'.loads = k.loads ∧ k'.stores = k.stores ∧
    k'.reserved = k.reserved ∧ k'.regs.a = k.regs.a ∧ k'.regs.tile = k.regs.tile ∧ k'.regs.rc = k.regs.rc ∧
    k'.regs.pg = k.regs.pg ∧ k'.regs.switch = k.regs.switch ∧
    (∀ q, q ≠ rd → k'.regs.getG q = k.regs.getG q) ∧ (∀ q, q ≠ rd → k'.regs.getP q = k.regs.getP q) ∧
    k'.regs.getG 0 = 0 ∧ k'.regs.getP 0 = true

/-! ### Input, references, clocks, power (chapters 3, 4 and 19) -/

/-- R433, R434, R97, R432: POWER begins at power-on with every register at its reset value and only flash, fuses and wear
kept; at 38 V all four lines assert and the wafer freezes; at 34 V the regulators shut down; at 62 V the input is
disconnected. -/
def Obligations.InputStartsFreezesAndEnds : Prop :=
  ∀ (s : State) (mv : Nat),
    let blank (mv : Nat) (p d : Bool) : State :=
      { flash := s.flash, imprint := s.imprint, nvs := { wear := s.nvs.wear }, ext := s.ext, free := s.free,
        posted := s.posted, pending := s.pending, pwr := { inputMv := mv, powered := p, disconnected := d } }
    (s.pwr.powered = false → 40000 ≤ mv → mv ≤ 60000 →
      exec (.powerApplied mv) s = .next (blank mv true false)) ∧
    (s.pwr.powered = true → mv ≤ 38000 → Yields (exec (.inputUndervoltage mv) s) (fun t =>
      (s.cur.stage = .power → t.cur.wait = .alertPower ∧ t.pwr.asserted = 0xF ∧ t.pwr.lines = 0xF) ∧
      (s.cur.stage = .ready → s.act = .none → s.cur.wait = .none → t.act = .alert ∧ t.pwr.asserted = 0xF))) ∧
    (s.pwr.powered = true → mv ≤ 34000 → exec (.regulatorShutdown mv) s = .next (blank mv false false)) ∧
    (62000 ≤ mv → exec (.inputOvervoltage mv) s = .next (blank mv false true))

/-- R51, R53, R55, R56, R57, R64: ready flags set and clear. In POWER, with no alert line asserted, the first-ready port becomes
active with no standby armed and ROM begins; in a dead freeze a reference other than the last active or the armed standby is
ignored; a port that is neither active nor armed shows the conditions as they stand and loses its ready flag, whether it was
ready or not; a window's offset is valid when both references stood throughout it; a qualification PLL without an input stops. -/
def Obligations.ReferencesBecomeReadyAndStop : Prop :=
  ∀ (s : State) (p : PortId) (now : RefConditions) (offset : Word) (throughout : Bool),
    let up : Clk := { s.clk with
      ready := setBit s.clk.ready p.val true, present := setBit s.clk.present p.val true,
      inWindow := setBit s.clk.inWindow p.val true, locked := setBit s.clk.locked p.val true,
      qualPll := setBit s.clk.qualPll p.val true, readySince := s.clk.readySince.set p.val s.ext }
    (s.pwr.powered = true → bitOf s.clk.ready p.val = false →
      (s.act = .none → s.cur.stage = .power → s.cur.wait = .none → s.pwr.asserted = 0 →
        Yields (exec (.referenceReady p) s) (fun t => t.cur.stage = .rom ∧
          t.clk = { up with active := p, activeValid := true, standby := 0xF, ppmValid := 0, pllsRun := false,
                            lockWait := false })) ∧
      (∀ lost, s.act = .dead lost → p ≠ lost → p.val ≠ s.clk.standby.toNat →
        exec (.referenceReady p) s = .next { s with clk := up }) ∧
      (s.act = .none → s.cur.stage = .ready → s.cur.wait = .none →
        exec (.referenceReady p) s = .next { s with clk := up })) ∧
    (s.pwr.powered = true → s.clk.active ≠ p → s.clk.standby.toNat ≠ p.val →
      now.present = false ∨ now.inWindow = false ∨ now.locked = false →
      (now.present = true ∨ (s.port p).linkUp = false) →
      exec (.readyFlagClear p now) s = .next { s with clk := { s.clk with
        ready := setBit s.clk.ready p.val false, present := setBit s.clk.present p.val now.present,
        inWindow := setBit s.clk.inWindow p.val now.inWindow, locked := setBit s.clk.locked p.val now.locked,
        qualPll := if now.present then setBit s.clk.qualPll p.val true else s.clk.qualPll,
        ppmValid := if now.present then s.clk.ppmValid else setBit s.clk.ppmValid p.val false } }) ∧
    (bitOf s.clk.present p.val = false →
      exec (.pllStop (.qualification p)) s = .next { s with clk := { s.clk with
        qualPll := setBit s.clk.qualPll p.val false, locked := setBit s.clk.locked p.val false } }) ∧
    (∀ f, s.tickRuns = false →
      exec (.pllStop (.folio f)) s = .next (s.modFolio f (fun x => { x with pll := false }))) ∧
    (s.clk.activeValid = true → s.clk.active ≠ p → bitOf s.clk.present p.val = true →
      Yields (exec (.portPpmWindow p offset throughout) s) (fun t =>
        bitOf t.clk.ppmValid p.val = throughout ∧ (throughout = true → t.clk.ppmOffset[p] = offset) ∧
        (∀ q, q ≠ p → t.clk.ppmOffset[q] = s.clk.ppmOffset[q] ∧ bitOf t.clk.ppmValid q.val = bitOf s.clk.ppmValid q.val) ∧
        { t with clk := s.clk } = s))

/-- R62, R63: in service, loss of the active reference with an armed standby that is ready begins a failover to it, after
which no standby is armed; without one a dead freeze begins, is counted, and no reference is active. R62, R70, R72, R76: the
folio PLLs lock, and at a frame edge, a tick that is a multiple of 16, a failover ends with its event and count, the fabric
frequency is the target after a frequency change, and a folio woken from Dark becomes Warm; between frame edges the clocks wait
for the next one (log entry 162). -/
def Obligations.FailoverFreezeAndRelock : Prop :=
  (∀ (s : State) (p sb : PortId) (now : RefConditions),
    bitOf s.clk.ready p.val = true → s.clk.activeValid = true → s.clk.active = p → s.act = .none → s.cur.stage = .ready →
    s.cur.lost = false → s.pwr.powered = true → now.present = false ∨ now.inWindow = false ∨ now.locked = false →
    (s.clk.standby.toNat = sb.val → sb ≠ p → bitOf s.clk.ready sb.val = true →
      Yields (exec (.readyFlagClear p now) s) (fun t =>
        t.act = .failover false p 0xF ∧ t.clk.active = sb ∧ t.clk.activeValid = true ∧ t.clk.standby = 0xF ∧
        bitOf t.clk.ready p.val = false ∧ bitOf t.clk.evLost p.val = true ∧ t.clk.tick = s.clk.tick)) ∧
    (s.clk.standby = 0xF →
      Yields (exec (.readyFlagClear p now) s) (fun t =>
        t.act = .dead p ∧ t.clk.activeValid = false ∧ t.clk.evDead = true ∧
        t.clk.deadFreezes = satInc s.clk.deadFreezes ∧ bitOf t.clk.ready p.val = false ∧ t.clk.tick = s.clk.tick))) ∧
  (∀ (s : State), s.pwr.powered = true → s.clk.activeValid = true → s.cur.lost = false → s.cur.taking = false →
    s.cur.stage = .ready →
    (s.clk.tick.toNat % 16 ≠ 0 → Yields (exec .pllRelockComplete s) (fun t =>
      t.clk = { s.clk with lockWait := true } ∧ t.act = s.act)) ∧
    (s.clk.tick.toNat % 16 = 0 →
      (∀ lost sb, s.act = .failover false lost sb → s.clk.alertHeld = false →
        s.clk.freqOwed = false → s.clk.switchOwed = false →
        Yields (exec .pllRelockComplete s) (fun t => t.act = .none ∧ t.clk.evFailover = true ∧
          t.clk.failovers = satInc s.clk.failovers ∧ t.clk.active = s.clk.active ∧ t.clk.tick = s.clk.tick)) ∧
      (s.act = .freqChange .relock →
        Yields (exec .pllRelockComplete s) (fun t => t.clk.freq = s.clk.target)) ∧
      (s.act = .none → ∀ f, (s.folio f).state ≠ .blocked →
        ((s.folio f).waking = true → Yields (exec .pllRelockComplete s) (fun t =>
          (t.folio f).clock = .warm ∧ (t.folio f).pll = true ∧ (t.folio f).waking = false)) ∧
        ((s.folio f).waking = false → (s.folio f).clock = .dark → Yields (exec .pllRelockComplete s) (fun t =>
          (t.folio f).clock = .dark)))))

/-- Table 3.1, R58, R60, R72: the rows that refuse a write of CLK.REF_SELECT, first row first, change nothing but the
posted result; an accepted write of the standby alone takes effect at once; FREQ_REQ is BUSY during a change, and refused
unless every bay is paused. -/
def Obligations.ReferenceAndFrequencyCommands : Prop :=
  ∀ (s : State) (a b : PortId) (standby : BitVec 4) (strict : Bool) (target : BitVec 2),
    let c := s.clk
    let posts (r : CmdResult) (source : BitVec 4) : State :=
      { s with clk := { c with result := r, source := source, seq := c.seq + 1 } }
    let w (x : PortId) : BitVec 4 := BitVec.ofNat 4 x.val
    (s.pwr.powered = true →
      (s.act ≠ .none → exec (.refSelect (w a) standby strict) s = .next (posts .busy 0)) ∧
      (s.act = .none → s.cur.lost = false → c.activeValid = true →
        (8 ≤ standby.toNat → standby ≠ 0xF → exec (.refSelect (w a) standby strict) s = .next (posts .unknown 0)) ∧
        (bitOf c.ready a.val = false →
          exec (.refSelect (w a) 0xF strict) s = .next (posts .refusedNotReady 0)) ∧
        (bitOf c.ready a.val = true → exec (.refSelect (w a) (w a) strict) s = .next (posts .refusedState 0)) ∧
        (bitOf c.ready a.val = true → a ≠ c.active → (∃ i ∈ s.bayIds, (s.bay i).phase = .running ∨ (s.bay i).phase = .recalled) →
          exec (.refSelect (w a) 0xF strict) s = .next (posts .refusedState 0)) ∧
        (a = c.active → a ≠ b → bitOf c.ready a.val = true → bitOf c.ready b.val = true →
          exec (.refSelect (w a) (w b) false) s = .next { s with clk := { c with
            strict := false, standby := w b, result := .done, source := 0,
            seq := c.seq + 1 } }) ∧
        (a ≠ c.active → bitOf c.ready a.val = true → s.cur.stage = .ready → (∀ i ∈ s.bayIds, (s.bay i).isRunning = false) →
          Yields (exec (.refSelect (w a) 0xF strict) s) (fun t => t.clk.active = a ∧ t.clk.standby = 0xF ∧
            t.clk.switchOwed = true ∧ t.clk.seq = c.seq ∧ t.act = .failover true c.active 0xF)))) ∧
    (s.cur.stage = .ready → s.cur.lost = false →
      (∀ ph, s.act = .freqChange ph → exec (.freqReq target) s = .next (posts .busy 1)) ∧
      (s.act = .none → (∃ i ∈ s.bayIds, (s.bay i).paused = false) →
        exec (.freqReq target) s = .next (posts .refusedState 1)) ∧
      (s.act = .none → (∀ i ∈ s.bayIds, (s.bay i).paused = true) → c.freq.toNat ≤ target.toNat →
        exec (.freqReq target) s = .next { s with
          clk := { c with target := target, freqOwed := true }, act := .freqChange .relock }) ∧
      (s.frozen = true → (∀ p l sb, s.act ≠ .failover p l sb) → exec (.freqReq target) s = .next s))

/-- R74, R75, R76: the owner's Dark mask is refused where a bay stands on a folio; a folio idle for longer than DIM_IDLE
falls to Dim, one that equals it stays Warm; a wanted bay's Dim folios wake together and are counted. -/
def Obligations.FoliosFallAndWake : Prop :=
  ∀ (s : State) (f : FolioId) (b : BayId) (mask : DWord),
    (s.writesDropped = false →
      (bitOf mask f.val = true → s.present f = true → bitOf s.clk.dark f.val = false → s.folioUsed f = true →
        exec (.folioDark mask) s = .next (s.clkPost .refusedState 2)) ∧
      ((∀ g, bitOf mask g.val = true → s.folioUsed g = false) →
        Yields (exec (.folioDark mask) s) (fun t => t.clk.dark = mask &&& s.inv.present ∧
          t.clk.result = .done ∧ t.clk.source = 2 ∧ t.clk.seq = s.clk.seq + 1 ∧
          (s.present f = true → bitOf mask f.val = true → (t.folio f).clock = .dark ∧ (t.folio f).pll = false) ∧
          (s.present f = false → t.folio f = s.folio f)))) ∧
    (s.fabricRuns = true → s.folioBusy f = false → bitOf s.clk.dark f.val = false → (s.folio f).clock = .warm →
      (s.clk.dimIdle ≠ 0 → s.clk.dimIdle.toNat < (s.folio f).idle →
        exec (.dimFall f) s = .next (s.modFolio f (fun x => { x with clock := .dim }))) ∧
      ((s.folio f).idle = s.clk.dimIdle.toNat → exec (.dimFall f) s = .next s)) ∧
    (s.fabricRuns = true → s.bayWanted b = true → Yields (exec (.dimWake b) s) (fun t =>
      (∀ g, g ∈ s.bayFolios b → (s.folio g).clock = .dim → (t.folio g).clock = .warm ∧ (t.folio g).idle = 0) ∧
      (∀ g, g ∉ s.bayFolios b ∨ (s.folio g).clock ≠ .dim → t.folio g = s.folio g) ∧
      t.clk.dimWakes = satAdd s.clk.dimWakes
        ((s.bayFolios b).filter (fun g => (s.folio g).clock == .dim)).length))

/-- R82, R101, R310, R311, Table 13.6: a setpoint frame takes effect, or is discarded whole when it was cut short, and the
bus, which carries one frame at a time, sends its next; the rail settles and the allowance follows; a trim request above M4
is dropped and told; a rail steps by 20 mV at most, and toward a lower setpoint the allowance comes first: no step is sent
while a carrel of the folio has still to adopt one. Which rail of a bus goes next is the model's choice (log entry 94), and
the 0 mV of a blocked folio (log entry 160). -/
def Obligations.RailsStepAndTrim : Prop :=
  ∀ (s : State) (f : FolioId) (v : Nat) (cut : Bool) (req : BitVec 3),
    let x := s.folio f
    (x.frame = some v → s.stepsRun = false → exec (.avsFrameEffect f cut) s = .next (s.modFolio f (fun y =>
      { y with frame := none, setpoint := if cut then y.setpoint else v }))) ∧
    (x.frame = some v → s.stepsRun = true → Yields (exec (.avsFrameEffect f cut) s) (fun t =>
      let y := t.folio f
      y.setpoint = (if cut then x.setpoint else v) ∧
      (y.setpoint = x.railGoal → y.frame = none) ∧
      (∀ w, y.frame = some w → w ≤ y.setpoint + 20 ∧ y.setpoint ≤ w + 20 ∧ w ≠ y.setpoint) ∧
      (y.setpoint ≠ x.railGoal → x.trimWait = false → s.isBlocked f = false →
        ∃ g, folioX g = folioX f ∧ (t.folio g).frame ≠ none) ∧
      ((∀ g, g ≠ f → folioX g = folioX f → (s.folio g).frame = none) →
        ∀ g h, folioX g = folioX f → folioX h = folioX f → (t.folio g).frame ≠ none → (t.folio h).frame ≠ none →
          g = h))) ∧
    (x.frame = none → x.setpoint = x.railGoal → x.settled = false →
      (s.stepsRun = false →
        exec (.railSettled f) s = .next (s.modFolio f (fun y => { y with settled := true }))) ∧
      (∀ m, s.stepsRun = true → x.trimTo = some m → x.trimNext = false → s.act = .none → s.cur.wait = .none →
        Yields (exec (.railSettled f) s) (fun t => (t.folio f).settled = true ∧ (t.folio f).trimTo = none ∧
          (t.folio f).allow = allowance m))) ∧
    (s.writesDropped = false →
      (4 < req.toNat → exec (.trimReqWrite f req) s =
        .next { s with portRegs := { s.portRegs with evTrimBad := true } }) ∧
      (req.toNat ≤ 4 → s.trimOpen = true → x.trimTo = none → s.cdx.codex = none → s.isBlocked f = false →
        Yields (exec (.trimReqWrite f req) s) (fun t =>
          let m := BitVec.ofNat 3 (min req.toNat x.ceiling.toNat)
          (t.folio f).req = req ∧ (t.folio f).adopted = m ∧
          (x.adopted.toNat < m.toNat → (t.folio f).allow = allowance m ∧ (t.folio f).trimTo = some m ∧
            (s.allowAdopted f = false → (t.folio f).frame = x.frame)) ∧
          (m.toNat < x.adopted.toNat → (t.folio f).allow = x.allow ∧ (t.folio f).trimTo = some m))) ∧
      (s.trimOpen = true → x.trimTo = none → s.isBlocked f = false →
        let u := s.modFolio f (fun y => { y with ceiling := 4 })
        (u.trimTarget f = x.adopted → exec (.trimClear f) s = .next u.pumpBuses) ∧
        (x.adopted.toNat < (u.trimTarget f).toNat → Yields (exec (.trimClear f) s) (fun t =>
          (t.folio f).ceiling = 4 ∧ (t.folio f).adopted = u.trimTarget f ∧ (t.folio f).trimTo = some (u.trimTarget f) ∧
          (t.folio f).allow = allowance (u.trimTarget f)))) ∧
      (req.toNat ≤ 4 → s.isBlocked f = true →
        exec (.trimReqWrite f req) s = .next (s.modFolio f (fun y => { y with req := req }))))

/-- R84, R85, R86, R87: the rail fraction falls by the limit's rule, or by one at least and never below 1, when the average over
the window of the folio's readings, or of its stacks rail's, is at or over its limit, and rises by one after a window of
updates below fifteen sixteenths of it; the cap's ceiling alike, and CAP_HOLD follows an average over the cap at ceiling 1.
Averages are exact: a pair (sum, number of samples). A folio whose librarian is stopped has no update (log entry 91). -/
def Obligations.LimitsLowerAndRaiseFractions : Prop :=
  ∀ (s : State) (f : FolioId) (counts : MeterCounts) (telemetry : List (Rail × Telemetry)) (mv da : Nat),
    s.fabricRuns = true →
    let x := s.folio f
    let p := s.pwr
    let runs := (x.reading (s.imprint.meter counts) :: x.runs).take 64
    let core := windowOf runs p.railWindow.toNat
    let stk := windowOf p.stacksRuns[stacksRail f] p.railWindow.toNat
    let coreMax := 1000 * p.folioA.toNat
    let stkMax := 1000 * p.stacksA.toNat
    let lowered (c limit : Nat) (avg : Nat × Nat) : Nat :=
      if max 1 (c * limit * avg.2 / avg.1) = c then max 1 (c - 1) else max 1 (c * limit * avg.2 / avg.1)
    let frac (c run : Nat) : Prop := Yields (exec (.railMeterUpdate f counts) s) (fun t =>
      (t.folio f).railFrac = c ∧ (t.folio f).railRun = run ∧ (t.folio f).runs = runs ∧
      t.pwr.throttles = (if c < x.railFrac then satInc p.throttles else p.throttles))
    let u : State := telemetry.foldl (fun t e => t.takeTelemetry e.1 e.2)
      { s with pwr := { p with inputMv := mv, inputDa := da } }
    let powers := (u.waferPower :: p.waferRuns).take 100000
    let avg := windowOf powers (1000 * p.capWindow.toNat)
    let cap := 10000000 * p.cap.toNat
    let capU := exec (.capUpdate telemetry mv da) s
    let ceil (c run : Nat) : Prop := Yields capU (fun t =>
      t.pwr.ceiling = c ∧ t.pwr.ceilRun = run ∧ t.pwr.waferRuns = powers ∧ t.pwr.inputMv = mv ∧ t.pwr.inputDa = da)
    (x.clock = .dark ∨ x.clock = .off → exec (.railMeterUpdate f counts) s = .next s) ∧
    (x.clock ≠ .dark → x.clock ≠ .off →
      (0 < coreMax → coreMax * core.2 ≤ core.1 → stk.1 < stkMax * stk.2 → 1 < x.railFrac →
        frac (lowered x.railFrac coreMax core) 0) ∧
      (0 < stkMax → stkMax * stk.2 ≤ stk.1 → core.1 < coreMax * core.2 → 1 < x.railFrac →
        frac (lowered x.railFrac stkMax stk) 0) ∧
      (16 * core.1 < 15 * coreMax * core.2 → 16 * stk.1 < 15 * stkMax * stk.2 → x.railFrac < 16 →
        (p.railWindow.toNat ≤ x.railRun + 1 → frac (x.railFrac + 1) 0) ∧
        (x.railRun + 1 < p.railWindow.toNat → frac x.railFrac (x.railRun + 1))) ∧
      (15 * coreMax * core.2 ≤ 16 * core.1 → core.1 < coreMax * core.2 → stk.1 < stkMax * stk.2 →
        frac x.railFrac 0)) ∧
    (0 < avg.1 → cap * avg.2 ≤ avg.1 → ceil (lowered p.ceiling cap avg) 0) ∧
    (16 * avg.1 < 15 * cap * avg.2 → p.ceiling < 16 →
      (p.capWindow.toNat * 1000 ≤ p.ceilRun + 1 → ceil (p.ceiling + 1) 0) ∧
      (p.ceilRun + 1 < p.capWindow.toNat * 1000 → ceil p.ceiling (p.ceilRun + 1))) ∧
    (p.capHold = false → p.ceiling = 1 → cap * avg.2 ≤ avg.1 → Yields capU (fun t => t.pwr.capHold = true)) ∧
    (p.capHold = true → avg.1 < cap * avg.2 → Yields capU (fun t => t.pwr.capHold = false))

/-- R80, R97, R98, R99, R442, R449: an asserted line, or a regulator's alert output on the line that gathers it, freezes the
wafer in service; a line let go clears where nothing else holds it, and the hold count starts when the last one clears; the
wafer leaves the freeze after the hold time, or at RESUME_FROM_ALERT, which is refused while a line is asserted and unknown
with another data byte. -/
def Obligations.AlertsFreezeAndRelease : Prop :=
  ∀ (s : State) (line : Fin 4) (r : Rail) (data : Byte) (since : Nat),
    let m : BitVec 4 := setBit 0 line.val true
    let n := alertLineOf r line
    let lines := setBit s.pwr.lines line.val false
    let rails := s.pwr.alertRails.filter (fun e => e.2 != r)
    let let_go (o : Host.Outcome State Fault Refusal) (lines : BitVec 4) (rails : List (Fin 4 × Rail)) : Prop :=
      Yields o (fun t =>
        t.pwr.lines = lines ∧ t.pwr.alertRails = rails ∧ t.act = s.act ∧
        (∀ j : Fin 4, bitOf t.pwr.asserted j.val = (bitOf lines j.val || rails.any (fun e => e.1 == j) ||
          (s.pwr.coolant != 0 && (j == 1 || j == 3)))) ∧
        t.pwr.clearSince = (if t.pwr.asserted = 0 ∧ s.pwr.asserted ≠ 0 then some s.ext else s.pwr.clearSince))
    let posts (r : CmdResult) : State :=
      { s with mgmt := { s.mgmt with result := r, seq := s.mgmt.seq + 1, acked := true } }
    (∀ f, alertLineOf (.core f) line = if 4 ≤ folioX f then 2 else 0) ∧
    (s.pwr.powered = true → s.cur.stage = .ready → s.cur.wait = .none → s.act = .none →
      Yields (exec (.alertAssert line none) s) (fun t => t.act = .alert ∧ t.pwr.asserted = s.pwr.asserted ||| m ∧
        t.pwr.lines = s.pwr.lines ||| m ∧ t.pwr.clearSince = none ∧ t.pwr.evAlert = true ∧
        t.pwr.alerts = satInc s.pwr.alerts) ∧
      Yields (exec (.alertAssert line (some r)) s) (fun t => t.act = .alert ∧
        t.pwr.asserted = s.pwr.asserted ||| setBit 0 n.val true ∧ t.pwr.alertRails = rails ++ [(n, r)])) ∧
    let_go (exec (.alertLineClear line none) s) lines s.pwr.alertRails ∧
    let_go (exec (.alertLineClear line (some r)) s) s.pwr.lines rails ∧
    (s.pwr.clearSince = some since → s.alertWaits = true → s.pwr.asserted = 0 → s.pwr.powered = true →
      (s.pwr.hold = 0xFFFF → exec .alertHoldExpiry s = .next s) ∧
      (s.ext ≤ since + 100 * s.pwr.hold.toNat → exec .alertHoldExpiry s = .next s) ∧
      (s.pwr.hold ≠ 0xFFFF → since + 100 * s.pwr.hold.toNat < s.ext →
        let u : State := { s with pwr := { s.pwr with clearSince := none } }
        (s.act = .alert → s.cur.wait = .none → s.cur.stage = .ready →
          exec .alertHoldExpiry s = .next (u.beginResume true)) ∧
        (∀ q, s.cur.wait = .alertPower → s.firstReady = some q → Yields (exec .alertHoldExpiry s) (fun t =>
          t.cur.stage = .rom ∧ t.clk.active = q ∧ t.clk.activeValid = true ∧ t.pwr.clearSince = none)))) ∧
    (s.mgmtClocked = true →
      (data ≠ 0xA5 → exec (.resumeFromAlert data true) s = .next (posts .unknown)) ∧
      (s.pwr.asserted ≠ 0 → exec (.resumeFromAlert 0xA5 true) s = .next (posts .refusedState)) ∧
      (s.pwr.asserted = 0 → s.alertWaits = true →
        exec (.resumeFromAlert 0xA5 true) s = .next (posts .done).leaveAlert) ∧
      (s.pwr.asserted = 0 → s.act = .none → s.cur.wait = .none →
        exec (.resumeFromAlert 0xA5 true) s = .next (posts .refusedState)) ∧
      exec (.resumeFromAlert data false) s = .next { s with mgmt := { s.mgmt with acked := false } })

/-- R445, Table 19.8: a measurement or a junction report completes: the coolant monitor's alerts assert lines 1 and 3 at their
thresholds, which freezes the wafer in service, and release them at theirs; a warning latches at its own threshold. -/
def Obligations.CoolantAndJunctionThresholds : Prop :=
  ∀ (s : State) (inlet outlet : Int) (flow celsius : Nat) (f : FolioId),
    s.pwr.powered = true →
    let freezes (t : State) : Prop := bitOf t.pwr.asserted 1 = true ∧ bitOf t.pwr.asserted 3 = true ∧
      (s.cur.stage = .ready → s.cur.wait = .none → s.act = .none → t.act = .alert)
    (∃ t, exec (.coolantMeasurement inlet outlet flow) s = .next t ∧
      t.mgmt.inlet = inlet ∧ t.mgmt.outlet = outlet ∧ t.mgmt.flow = flow ∧
      (flow ≤ 220 → bitOf t.pwr.coolant 0 = true) ∧ (260 < flow → bitOf t.pwr.coolant 0 = false) ∧
      (220 < flow → flow ≤ 260 → bitOf t.pwr.coolant 0 = bitOf s.pwr.coolant 0) ∧
      (480 ≤ inlet → bitOf t.pwr.coolant 1 = true) ∧ (inlet < 450 → bitOf t.pwr.coolant 1 = false) ∧
      (450 ≤ inlet → inlet < 480 → bitOf t.pwr.coolant 1 = bitOf s.pwr.coolant 1) ∧
      (flow ≤ 280 → bitOf t.mgmt.warn 0 = true) ∧ (420 ≤ inlet → bitOf t.mgmt.warn 1 = true) ∧
      (s.pwr.coolant = 0 → flow ≤ 220 ∨ 480 ≤ inlet → freezes t) ∧
      (s.pwr.lines = 0 → s.pwr.alertRails = [] → bitOf s.pwr.coolant 2 = false → 260 < flow → inlet < 450 →
        t.pwr.asserted = 0)) ∧
    ((∀ g, g ≠ f → (s.folio g).junction ≤ celsius) →
      ∃ t, exec (.junctionReport f celsius) s = .next t ∧ (t.folio f).junction = celsius ∧
        (95 ≤ celsius → bitOf t.mgmt.warn 2 = true) ∧ (105 ≤ celsius → bitOf t.pwr.coolant 2 = true) ∧
        (celsius < 100 → bitOf t.pwr.coolant 2 = false) ∧
        (100 ≤ celsius → celsius < 105 → bitOf t.pwr.coolant 2 = bitOf s.pwr.coolant 2) ∧
        (s.pwr.coolant = 0 → 105 ≤ celsius → freezes t)) ∧
    ((∃ g, g ≠ f ∧ celsius < (s.folio g).junction) →
      ∃ t, exec (.junctionReport f celsius) s = .next t ∧ (t.folio f).junction = celsius)

/-! ### Start-up and the curators (chapter 5) -/

/-- Table 5.1, R114, R115, R129, R408, R57: ROM ends in the election, leaf A first; the claim of leaf B waits 1,000 ticks;
BOOKPLATE fixes the slot in force, the mode, the registers of the bookplate and the reference; a strict bookplate with
neither port ready waits; a port shows NO_CURATOR 200,000 ticks after its reference became ready, and not before. -/
def Obligations.ElectionAndBookplate : Prop :=
  ∀ (s : State) (a b : CuratorReport) (flashOk fwA fwB : Bool) (p : PortId),
    let okA := s.eligible s.cur.curA a false
    let okB := s.eligible s.cur.curB b true
    (s.inStage .rom = true → a.completed = true → b.completed = true →
      (okA = true → Yields (exec (.romEnd a b) s) (fun t => t.cur.stage = .bookplate ∧ t.cur.leafB = false ∧
        t.cur.standby = okB ∧ t.cur.curA.claim = true)) ∧
      (okA = false → okB = true → Yields (exec (.romEnd a b) s) (fun t => t.cur.stage = .elect ∧
        t.cur.curB.eligible = true)) ∧
      (okA = false → okB = false → Yields (exec (.romEnd a b) s) (fun t => t.cur.stage = .halted ∧
        t.cur.cause = .noCurator))) ∧
    (s.inStage .elect = true → s.cur.curA.claim = false → s.cur.curB.eligible = true →
      (s.inStageFor < 1000 → exec .electTimeout s = .next s) ∧
      (1000 ≤ s.inStageFor → Yields (exec .electTimeout s) (fun t => t.cur.stage = .bookplate ∧ t.cur.leafB = true ∧
        t.cur.standby = false ∧ t.cur.curB.claim = true))) ∧
    (s.inStage .bookplate = true → Yields (exec (.bookplateEnd flashOk fwA fwB) s) (fun t =>
      let plain := flashOk = false ∨ (fwA = false ∧ fwB = false)
      let slot := slotInForce (s.flashRead (slotBase false) 4096) (s.flashRead (slotBase true) 4096)
      let named (n : Nat) : Prop := s.clk.portReady n = true
      (plain → t.cur.mode = .plain ∧ t.nvs.slot = 2) ∧
      (¬plain → t.nvs.slot = slot ∧ (slot = 2 → t.cur.mode = .blank) ∧ (slot ≠ 2 → t.cur.mode = .normal)) ∧
      t.nvs.flashOk = flashOk ∧ t.nvs.keys = t.plate.keys ∧ t.pwr.cap = BitVec.ofNat 12 t.plate.cap ∧
      t.pwr.hold = BitVec.ofNat 16 t.plate.alertHold ∧ t.clk.target = BitVec.ofNat 2 t.plate.freq ∧
      t.portRegs.owner = Fin.ofNat 8 t.plate.owner ∧ t.cdx.floor = BitVec.ofNat 32 t.plate.floor ∧
      (named t.plate.clock → t.clk.active = Fin.ofNat 8 t.plate.clock) ∧
      (¬named t.plate.clock → named t.plate.standby → t.clk.active = Fin.ofNat 8 t.plate.standby) ∧
      (¬named t.plate.clock → ¬named t.plate.standby →
        (t.plate.strict = true → t.cur.wait = .strictPort ∧ t.cur.stage = .bookplate) ∧
        (t.plate.strict = false → t.clk.active = s.clk.active ∧ t.clk.evFallback = true)))) ∧
    (s.pwr.powered = true → bitOf s.clk.ready p.val = true → s.cur.stage = .rom →
      (s.clk.readySince[p] + 200000 ≤ s.ext →
        exec (.noCuratorTimeout p) s = .next (s.modPort p (fun x => { x with shadow := .noCurator }))) ∧
      (s.ext < s.clk.readySince[p] + 200000 → exec (.noCuratorTimeout p) s = .next s))

/-- Table 5.1, R46, R109, R120, R126, R127, R400, R418, R419, R83: the stages CLOCKS to RAISE end in the next stage, or halt where no
folio is left or a global checker of the presiding curator failed. INVENTORY leaves the cells zero; the masks of the edition
name the folios' states; AUDIT zeroes the counters and keeps what failed, and of capture-clock shortening only a carrel at the
position of R418 counts; RAISE, once frequency, trim and calibration stand, fixes the tag and begins the epoch. CLOCKS ends at
a frame edge, and waits for one (log entry 162). -/
def Obligations.StagesEndInTheNext : Prop :=
  ∀ (s : State) (inv : InventoryReport) (rep : AuditReport) (rows : List CalRow) (f : FolioId),
    let masks (t : State) : Prop :=
      (bitOf t.inv.present f.val = true ↔ (t.folio f).state = .present) ∧
      (bitOf t.inv.passMask f.val = true ↔ (t.folio f).state = .passThrough) ∧
      ((t.folio f).state = .blocked → (t.folio f).clock = .off)
    let goes (t : State) (g : Stage) : Prop :=
      (t.inv.present = 0 → t.cur.stage = .halted ∧ t.cur.cause = .noFolio) ∧ (t.inv.present ≠ 0 → t.cur.stage = g)
    (s.inStage .clocks = true →
      (s.clk.tick.toNat % 16 = 0 → Yields (exec .clocksEnd s) (fun t => t.cur.stage = .inventory ∧ t.clk.freq = 3 ∧
        (t.folio f).pll = true)) ∧
      (s.clk.tick.toNat % 16 ≠ 0 → exec .clocksEnd s = .next { s with clk := { s.clk with lockWait := true } })) ∧
    (s.inStage .inventory = true → Yields (exec (.inventoryEnd inv) s) (fun t => t.cur.stage = .rebind ∧
      t.carrels = [] ∧ t.homes = [] ∧ t.routers = [] ∧ t.net = [] ∧ t.inv.factory = s.imprint.factory ∧
      (s.cur.mode = .plain → t.inv.field = []))) ∧
    (s.inStage .rebind = true → Yields (exec .rebindEnd s) (fun t => masks t ∧ goes t .audit ∧
      (∀ l, t.linkMayTrain l = true → (t.link l).state = .training ∧ (t.link l).stage = 1) ∧
      (∀ l, t.linkMayTrain l = false → (t.link l).state = .off))) ∧
    (s.inStage .audit = true → Yields (exec (.auditEnd rep) s) (fun t => t.int.done = true ∧
      (t.int.pass = true ↔ t.int.failed = 0) ∧ (t.folio f).sramCe = 0 ∧ (t.folio f).dropTicket = 0 ∧
      (t.folio f).replays = 0 ∧
      (∀ c : Fin 9, (c, f) ∈ rep.folios → s.hasFolioEntry f = false → bitOf (t.folio f).auditFail c.val = true ∧
        bitOf t.int.failed c.val = true ∧ bitOf t.int.folios f.val = true) ∧
      (∀ c ∈ rep.shortened, c.dport = s.shorteningPos → s.hasFolioEntry c.folio = false →
        bitOf (t.folio c.folio).auditFail 7 = true ∧ bitOf t.int.failed 7 = true) ∧
      (rep.folios = [] → rep.channels = [] → rep.ports = [] → rep.curators = [] →
        (∀ c ∈ rep.shortened, c.dport ≠ s.shorteningPos) → t.int.pass = true) ∧
      (∀ q ∈ rep.curators, q.2 = false → t.cur.stage = .halted ∧ t.cur.cause = .globalChecker) ∧
      ((∀ q ∈ rep.curators, q.2 = true) → masks t ∧ goes t .calibrate))) ∧
    ((s.lastCheckpoint = none → s.shorteningPos = 0) ∧ (∀ q, s.cur.mode ≠ .plain → s.lastCheckpoint = some q →
      s.shorteningPos = fieldAt q.2 8 8 % 16)) ∧
    (s.inStage .calibrate = true → Yields (exec (.calibrateEnd rows) s) (fun t => t.led.shelfFixed = true ∧ masks t ∧
      goes t .raise ∧ (∀ r ∈ rows, r.points = none → s.hasFolioEntry r.folio = false → t.pwr.evCalib = true))) ∧
    (s.inStage .raise = true → s.raised = false → exec .raiseEnd s = .next s) ∧
    (s.inStage .raise = true → s.raised = true → Yields (exec .raiseEnd s) (fun t =>
      (t.cur.stage = .codex ∨ t.cur.stage = .ready) ∧ t.clk.freq = s.clk.target ∧ t.led.started = true ∧
      t.inv.tag = editionTag s.inv.present s.inv.passMask ∧ t.inv.valid = true)) ∧
    (∀ n, s.cur.stage.limit = some n → s.cur.wait = .none → s.act = .none → s.cur.taking = false →
      (s.inStageFor ≤ n → exec .stageLimit s = .next s) ∧
      (n < s.inStageFor → Yields (exec .stageLimit s) (fun t => t.cur.stage = .halted ∧
        t.cur.cause = (if s.cur.stage = .rom then .noCurator else .stageLimit))))

/-- R117, R118, R119: a heartbeat of the presiding curator; after 400 ticks without one the standby deposes it and claims,
and a mailbox command in progress ends; the new curator's first heartbeat completes the takeover; after 2,000 ticks without
one, a standby that was itself lost among the cases, the folio clocks stop for good. Heartbeat times are external ticks (the
model's choice, log entry 10). -/
def Obligations.HeartbeatsAndTakeover : Prop :=
  ∀ (s : State), s.curatorRuns = true → 3 ≤ s.cur.stage.code →
    (s.cur.taking = false →
      exec .heartbeat s = .next { s with cur := { s.cur with heartbeat := s.ext } }) ∧
    (s.cur.taking = true → Yields (exec .heartbeat s) (fun t =>
      t.cur.taking = false ∧ t.cur.takeover = true ∧ t.cur.heartbeat = s.ext ∧ t.cur.leafB = s.cur.leafB)) ∧
    (s.cur.standby = true → s.cur.taking = false →
      (s.ext < s.cur.heartbeat + 400 → exec .heartbeatTimeout s = .next s) ∧
      (s.cur.heartbeat + 400 ≤ s.ext → Yields (exec .heartbeatTimeout s) (fun t =>
        t.cur.leafB = !s.cur.leafB ∧ t.cur.standby = false ∧ t.cur.taking = true ∧ t.cur.heartbeat = s.cur.heartbeat ∧
        (s.cur.leafB = false → t.cur.curA.deposed = true ∧ t.cur.curB.claim = true) ∧
        (s.cur.leafB = true → t.cur.curB.deposed = true ∧ t.cur.curA.claim = true) ∧
        (s.mbx.relinq = none → t.mbx.running = none)))) ∧
    (s.ext < s.cur.heartbeat + 2000 → exec .librarianHeartbeatTimeout s = .next s) ∧
    (s.cur.heartbeat + 2000 ≤ s.ext → Yields (exec .librarianHeartbeatTimeout s) (fun t =>
      t.cur.lost = true ∧ t.fabricRuns = false ∧ (∀ p, (t.port p).shadow = .curatorLost) ∧
      { t with cur := s.cur, ports := s.ports } = s))

/-! ### Carrels, the scheduled plane and passes (chapters 6, 8, 12 and 18) -/

/-- R93, R144 to R149, R151, R155, R243: a recalled carrel takes its recall at its boundary, where an overrun stopped it too; a
long instruction leaves its opcode and next element in pg; only PREEMPT counts; the reservation is lost; a faulted carrel
records the cause alone. Quiescence is reported once every access has completed. A sentinel step's replays count on every
carrel of a running bay, and the one above the allowance is an overrun. Log entry 21, the model's choice: a long instruction
restored and not yet issued again keeps its pg. -/
def Obligations.RecallsAreTakenAtABoundary : Prop :=
  ∀ (s : State) (c : CarrelId) (b : BayId) (p : Pass) (n : Nat),
    let k := s.carrel c
    let rc := { k.regs.rc with cause := p.recallIn,
                               recalls := if p.recallIn = 1 then satInc k.regs.rc.recalls else k.regs.rc.recalls }
    let takes (pg : PgReg) : State := s.setCarrel c { k with
      run := .quiescing, long := none, reserved := none, regs := { k.regs with rc := rc, pg := pg } }
    (s.fabricRuns = true → k.bay = some b → (s.bay b).pass = some p → p.recallIn ≠ 0 →
      (k.run = .recalling ∨ k.run = .overrun →
        (∀ op next, k.long = some (op, next) → exec (.recallTaken c) s =
          .next (takes { next := BitVec.ofNat 24 next, opcode := op, valid := true })) ∧
        (k.long = none → k.regs.pg.valid = false → exec (.recallTaken c) s = .next (takes {})) ∧
        (k.long = none → k.regs.pg.valid = true → exec (.recallTaken c) s = .next (takes k.regs.pg))) ∧
      (k.run = .faulted → exec (.recallTaken c) s = .next (s.setCarrel c
        { k with reserved := none, regs := { k.regs with rc := { k.regs.rc with cause := p.recallIn } } })) ∧
      (k.run = .quiescing ∨ k.run = .faulted → (s.bay b).phase = .recalled → k.repQuiesced = false → c.key ∉ p.quiesced →
        (k.loads = [] → k.stores = [] → exec (.quiescence c) s = .next (s.setCarrel c
          { k with run := if k.run = .faulted then .faulted else .quiesced, repQuiesced := true })) ∧
        (k.loads ≠ [] ∨ k.stores ≠ [] → p.recallIn = 1 → exec (.quiescence c) s = .next s))) ∧
    (s.fabricRuns = true → k.bay = some b → (s.bay b).phase = .running → k.beatReplays + n = k.regs.st.allow.toNat →
      Yields (exec (.sentinelStep c 0) s) (fun t => t.carrel c = k) ∧
      Yields (exec (.sentinelStep c n) s) (fun t => (t.carrel c).beatReplays = k.regs.st.allow.toNat ∧
        (t.carrel c).run = k.run ∧ (t.carrel c).regs.a = k.regs.a ∧ (t.carrel c).regs.pc = k.regs.pc) ∧
      Yields (exec (.sentinelStep c (n + 1)) s) (fun t =>
        (t.carrel c).run = (if k.run = .faulted then .faulted else .overrun) ∧
        (t.carrel c).regs.st.overrun = true ∧ (t.carrel c).repOverrun = true ∧ (t.carrel c).regs.a = k.regs.a))

/-- Table 8.6, R94, R142, R143, R147, R149, R151, R202, R311: the reports of a carrel at the librarians. The last QUIESCED of a
PREEMPT begins shelving out, unless a carrel has faulted, and that of another cause ends the pass by it; EXITED counts; FAULT,
OVERRUN and PLANE issue their recall and fix how the request ends, an overrun withholding no payload whose CRC flit had
reached egress; an overrun counts in folio and wafer and lowers the folio's trim ceiling. -/
def Obligations.ReportsReachTheLibrarians : Prop :=
  ∀ (s : State) (c : CarrelId) (b : BayId) (p : Pass),
    s.fabricRuns = true → (s.carrel c).bay = some b → (s.bay b).pass = some p →
    let k := s.carrel c
    let f := c.folio
    let counted : State := (s.modCarrel c (fun k => { k with repQuiesced := false })).modPass b (fun q =>
      { q with quiesced := q.quiesced ++ [c.key] })
    let ends (st de ca : BitVec 4) : Ending := { status := st, detail := de, cause := ca, tick := s.clk.tick }
    let stops (u : State) (e : Ending) : State := ((u.modPass b (fun q =>
      { q with stopped := recallMax q.stopped e.cause,
               ending := if q.released then q.ending else some (Ending.merge q.ending e) })).issueRecall b e.cause).settle
    let withheld (u : State) : State := u.modPass b (fun q => { q with report := true })
    let overran : State := { ((s.modCarrel c (fun k => { k with repOverrun := false })).modFolio f (fun x =>
        { x with overruns := satInc x.overruns, ceiling := if x.ceiling = 0 then 0 else x.ceiling - 1 })) with
        pwr := { s.pwr with overruns := satInc s.pwr.overruns },
        portRegs := { s.portRegs with evTrimBackoff := true } }
    (k.repQuiesced = true → (s.bay b).phase = .recalled →
      (p.quiesced.length + 1 < (s.bayCarrels b).length → exec (.quiesced b c) s = .next counted.settle) ∧
      (p.quiesced.length + 1 = (s.bayCarrels b).length →
        (p.recallIn = 1 → (∀ d ∈ s.bayCarrels b, (s.carrel d).run ≠ .faulted) → exec (.quiesced b c) s =
          .next (counted.modBay b (fun x => { x with phase := .shelvingOut })).settle) ∧
        (p.recallIn = 1 → (∃ d ∈ s.bayCarrels b, (s.carrel d).run = .faulted) →
          ((∀ d ∈ s.bayCarrels b, (s.carrel d).regs.rc.pending = false) →
            exec (.quiesced b c) s = .next counted.settle) ∧
          ((∃ d ∈ s.bayCarrels b, (s.carrel d).regs.rc.pending = true ∧ (s.carrel d).regs.rc.pendingCause ≠ 1) →
            exec (.quiesced b c) s = .next (counted.endPending b p.stopped).settle)) ∧
        (p.recallIn ≠ 1 → exec (.quiesced b c) s = .next (counted.endPassBy b p.recallIn).settle))) ∧
    (k.repExited = true → p.exited.length + 1 < (s.bayCarrels b).length →
      exec (.exited b c) s = .next ((s.modCarrel c (fun k => { k with repExited := false })).modPass b (fun q =>
        { q with exited := q.exited ++ [c.key] }))) ∧
    ((s.bay b).phase = .running → s.partner b = none →
      (k.repFault = true → exec (.fault b c) s =
        .next (stops (withheld (s.modCarrel c (fun k => { k with repFault := false })))
          (if k.regs.st.fcode = 0x07 ∨ k.regs.st.fcode = 0x08 then ends 1 3 4 else ends 3 0 4))) ∧
      (k.repPlane = true → exec (.plane b c) s =
        .next (stops (withheld { (s.modCarrel c (fun k => { k with repPlane := false })) with
          int := { s.int with evPlane := true } }) (ends 1 2 5))) ∧
      (k.repOverrun = true → s.trimOpen = false →
        (s.crcArrived b = false → exec (.overrun b c) s = .next (stops (withheld overran) (ends 1 1 5))) ∧
        (s.crcArrived b = true → exec (.overrun b c) s = .next (stops overran (ends 1 1 5)))))

/-- R19, R89, R150, R203 to R206, R280, R289, R376: the control words. START begins every carrel of the bay at pc 0 with g1 the offset
of its volume region and every other register zero, and its links and crossings empty; RESUME lets restored carrels go on;
RECALL stops their switches and marks their cores, or becomes pending in a bay that already quiesces or shelves; FRACTION sets
the bay's dilation. A word whose CRC is good is taken, the first good copy at a librarian; a bad one is counted, and
reported. The clauses on a word taken rest on log entry 165, the model's choice. -/
def Obligations.ControlWordsActOnTheBay : Prop :=
  ∀ (s : State) (b : BayId) (c : CarrelId) (word c0 c1 : Word) (f : FolioId),
    let x := s.bay b
    let cause := x.word.recallIn
    let used : State := s.modBay b (fun y => y.usedWord (fun w => { w with recallIn := 0 }))
    (∀ e p v, s.fabricRuns = true → s.bayEntry b = some e → x.pass = some p → x.running = some v → x.phase = .setup →
      x.word.op = 1 → s.bayWarm b = true →
      ∃ u : State, exec (.start b) s = .next u.settle ∧ (u.bay b).phase = .running ∧
        (u.bay b).pass = some { p with started := true, exited := [], quiesced := [], recallIn := 0 } ∧
        (∀ r ∈ s.crossingsOf b, (u.link (linkOf r.dir r.link)).words = []) ∧
        (c ∈ e.carrels → let k := u.carrel c
          k.run = .running ∧ k.regs.pc = 0 ∧ k.regs.getG 1 = BitVec.ofNat 32 v.region ∧
          (∀ i, i ≠ 1 → k.regs.getG i = 0) ∧ (∀ i, i ≠ 0 → k.regs.getP i = false) ∧ k.regs.a = .replicate 16 0 ∧
          k.regs.tile = [] ∧ k.regs.switch.w = 0 ∧ k.regs.switch.running = true ∧
          k.regs.switch.linkN = e.clearLink c 0 ∧ k.regs.switch.linkE = e.clearLink c 1 ∧
          k.regs.st.pure_ = v.pure_ ∧ k.regs.st.piecewise = e.piecewise ∧ k.regs.st.replays = 0 ∧
          k.regs.st.allow = (s.folio c.folio).allow ∧ k.sram = (s.carrel c).sram ∧
          k.stackMem = (s.carrel c).stackMem) ∧
        (c ∉ e.carrels → u.carrel c = s.carrel c)) ∧
    (s.fabricRuns = true → x.phase = .resumeIssued → x.word.op = 2 → s.bayWarm b = true →
      ∃ u : State, exec (.resume b) s = .next (u.checkComplete b).settle ∧ (u.bay b).phase = .running ∧
        (u.bay b).pass = x.pass ∧
        (c ∈ s.bayCarrels b → (s.carrel c).run = .quiesced → let k := u.carrel c
          k.run = (if (s.carrel c).exitDone then .exited else .running) ∧
          k.regs = { (s.carrel c).regs with switch := { (s.carrel c).regs.switch with running := true } } ∧
          k.sram = (s.carrel c).sram)) ∧
    (s.fabricRuns = true → cause ≠ 0 →
      (x.phase = .running → ∃ u : State, exec (.bayRecall b) s = .next u.settle ∧ (u.bay b).phase = .recalled ∧
        (∀ p, x.pass = some p → (u.bay b).pass = some { p with
          recallIn := cause, quiesced := [], recalls := if cause = 1 then p.recalls + 1 else p.recalls }) ∧
        (cause ≠ 1 → ∀ r ∈ s.crossingsOf b, (u.link (linkOf r.dir r.link)).words = []) ∧
        (c ∈ s.bayCarrels b → let k := u.carrel c
          k.regs.switch.running = false ∧ k.sram = (s.carrel c).sram ∧ k.regs.pc = (s.carrel c).regs.pc ∧
          ((s.carrel c).run = .running ∨ (s.carrel c).run = .exited → k.run = .recalling) ∧
          ((s.carrel c).run = .faulted → k.run = .faulted) ∧
          (cause = 1 → k.regs.switch.linkN = (s.carrel c).regs.switch.linkN) ∧
          (cause ≠ 1 → k.regs.switch.linkN = []))) ∧
      (x.phase = .setup ∨ x.phase = .resumeIssued → cause ≠ 1 →
        exec (.bayRecall b) s = .next (used.endPassBy b cause).settle) ∧
      (x.phase = .setup → cause = 1 → exec (.bayRecall b) s = .next ((used.startBay b).recallBay b 1).settle) ∧
      (x.phase = .resumeIssued → cause = 1 → exec (.bayRecall b) s = .next ((used.resumeBay b).recallBay b 1).settle) ∧
      (x.phase = .recalled → exec (.bayRecall b) s =
        .next ((used.mapBay b (fun _ k => k.recallPend cause)).quiescentBay b).settle) ∧
      (x.phase = .shelvingOut ∨ x.phase = .shelvingIn → ∃ u : State, exec (.bayRecall b) s = .next u ∧
        u.bay b = x.usedWord (fun w => { w with recallIn := 0 }) ∧
        (c ∈ s.bayCarrels b → let r := (s.carrel c).regs.rc
          (u.carrel c).regs.rc = { r with
            pending := true, pendingCause := if r.pending then recallMax r.pendingCause cause else cause })) ∧
      (x.phase = .idle ∨ x.phase = .refreshing → exec (.bayRecall b) s = .next used)) ∧
    (s.fabricRuns = true → x.word.fraction ≠ 0 → exec (.fraction b) s = .next (s.modBay b (fun y =>
      { (y.usedWord (fun w => { w with fraction := 0 })) with frac := x.word.fraction.toNat }))) ∧
    (controlOk word = true →
      ((s.carrel c).bay = none → exec (.controlWord (.carrel c word)) s = .next s) ∧
      ((s.carrel c).bay = some b → exec (.controlWord (.carrel c word)) s = .next (s.takeWord b word) ∧
        (∀ e, x.words = [] → (wordFields word).blank = false → s.bayEntry b = some e → x.phase = .running →
          exec (.controlWord (.carrel c word)) s = .next (s.modBay b (fun y => { y with words :=
            [{ wordFields word with running := true, at_ := (s.passCycle e + 15) / 16 }] }))))) ∧
    (controlOk word = false → (s.carrel c).bay = some b →
      Yields (exec (.controlWord (.carrel c word)) s) (fun t => t.carrel c = { s.carrel c with repPlane := true } ∧
        (t.folio c.folio).ctrlCrc = satAdd (s.folio c.folio).ctrlCrc 1 ∧ t.int.evPlane = true)) ∧
    (controlOk c0 = true → exec (.controlWord (.librarian b f c0 c1)) s =
      .next ((s.countControl f (if controlOk c1 then 0 else 1)).takeWord b c0)) ∧
    (controlOk c0 = false → controlOk c1 = true → exec (.controlWord (.librarian b f c0 c1)) s =
      .next ((s.countControl f 1).takeWord b c1)) ∧
    (controlOk c0 = false → controlOk c1 = false → Yields (exec (.controlWord (.librarian b f c0 c1)) s) (fun t =>
      t = (((s.badControl f 2).modPass b (fun p => { p with report := true })).stopPass b (s.aborted 2)) ∧
      ((s.badControl f 2).folio f).ctrlCrc = satAdd (s.folio f).ctrlCrc 2))

/-- R192, R194, R196, R198, R200, R202, R208, Tables 8.2 to 8.4: one working cycle of the switches of a running bay: w counts at
every carrel; RECV writes the 14 DATA bytes and two zeros at 16 times its slot; an output passes the input it selects, or the
slot it sends, to the neighbour, which it joins behind what is on its way there; a flit where none is due, a due flit that is
missing, and a torn one are plane errors; core registers and carrels of other bays do not change. -/
def Obligations.SwitchMovesFlits : Prop :=
  ∀ (s : State) (b : BayId) (e : BayEntry) (ev : PlaneEvents) (c d : CarrelId) (o : Nat),
    let k := s.carrel c
    let a := k.act
    let sw := k.regs.switch
    let drifted : State := ev.drift.foldl (fun t d => t.modFolio d.1 (fun x => x.drift d.1 d.2.1 d.2.2)) s
    let words := s.crossingIn b (s.passCycle e)
    let input (i : Fin 4) : Flit := (drifted.arriving e words ev c i).1
    let toward (r : SwitchRegs) : List Flit := [r.linkS, r.linkW, r.linkN, r.linkE].getD o []
    let passes (f : Flit) (t : State) : Prop :=
      toward (t.carrel d).regs.switch = (toward (s.carrel d).regs.switch).drop 1 ++ [f]
    (s.bayEntry b = none ∨ s.planeRuns b = false → exec (.flit b ev) s = .next s) ∧
    (s.bayEntry b = some e → s.planeRuns b = true → e.x0 + e.w ≤ 544 → e.y0 + e.h ≤ 544 →
      Yields (exec (.flit b ev) s) (fun t =>
        (c ∉ e.carrels → t.carrel c = k) ∧
        (c ∈ e.carrels → let k' := t.carrel c
          k'.regs.switch.w = sw.w + 1 ∧ k'.regs.g = k.regs.g ∧ k'.regs.a = k.regs.a ∧ k'.regs.p = k.regs.p ∧
          k'.regs.pc = k.regs.pc ∧ k'.stackMem = k.stackMem ∧ k'.loads = k.loads ∧ k'.stores = k.stores ∧
          (a.recv = 0 → k'.sram = k.sram) ∧
          (∀ i : Fin 4, a.recv = i.val + 1 → k'.sram = k.sram.write Memory.blank (16 * sw.pos.recv)
            (leBytes 14 ((input i).setWidth 112).toNat ++ [0, 0])) ∧
          (o < 4 → e.neighbour c o = some d →
            (a.out o = 0 → passes idleFlit t) ∧
            (∀ i : Fin 4, a.out o = i.val + 1 → passes (input i) t) ∧
            (a.out o = 5 → a.crc = false → (∀ q ∈ ev.ecc, q.1 = c → q.2.bad = false) →
              passes (dataFlit (BitVec.ofNat 112 (leNat (k.sram.read Memory.blank (16 * sw.pos.send) 14)))) t)) ∧
          (let due (i : Fin 4) : Bool := a.recv == i.val + 1 || a.out 0 == i.val + 1 || a.out 1 == i.val + 1 ||
             a.out 2 == i.val + 1 || a.out 3 == i.val + 1
           (∃ i : Fin 4, (input i).getLsbD 126 = (input i).getLsbD 127 ∨ (input i).getLsbD 126 ≠ due i ∨
             ((input i).getLsbD 126 = true ∧ flitParityBad (input i) = true)) →
           k'.repPlane = true ∧ t.int.evPlane = true))))

/-- R280, R282, R299, R303, R198: a pass is set up: every carrel's SRAM takes its image from the volume region, the lookup sets HIT
and WRITE, the input is written at the ingress carrel and START issued; a refresh ends the write-back that runs with it,
restores the work span, and leaves the bay warm when no pass waits. Log entry 166, the model's choice: a write-back that read
an uncorrectable word leaves no bookmark. -/
def Obligations.PassesAreSetUpAndRefreshed : Prop :=
  ∀ (s : State) (b : BayId) (e : BayEntry) (p q : Pass) (v : Volume) (c : CarrelId) (ecc : List (CarrelId × Ecc)),
    s.bayEntry b = some e → (s.bay b).volume p.req.vslot = some v → s.fabricRuns = true →
    ((s.bay b).pass = some p → (s.bay b).phase = .setup →
      (p.copied = false → p.looked = false → (∀ d, s.timetable b e p.req.vslot d = none) →
        Yields (exec (.imageCopyComplete b) s) (fun t => (t.bay b).pass = some { p with copied := true } ∧
          (t.bay b).lastSlot = p.req.vslot ∧ (t.home c.key).queue = (s.home c.key).queue ∧
          (c ∈ e.carrels → (t.home c.key).entries = [] ∧ (t.carrel c).regs = (s.carrel c).regs ∧
            (t.carrel c).stackMem = (s.carrel c).stackMem ∧
            ∀ x, (t.carrel c).sram.byte Memory.blank x =
              if x < 49152 then (s.carrel c).stackMem.byte Memory.blank (v.region + x) else 0) ∧
          (c ∉ e.carrels → t.carrel c = s.carrel c))) ∧
      (p.looked = false → p.copied = false →
        ((s.bay b).findTag v p.req = none → Yields (exec (.bookmarkLookupResult b) s) (fun t =>
          t.bay b = { s.bay b with pass := some { p with looked := true, hit := false, slot := 0, writeBm := true } } ∧
          (∀ d, d ≠ b → t.bay d = s.bay d) ∧ { t with bays := s.bays } = s)) ∧
        (∀ m, (s.bay b).findTag v p.req = some m → m.archive = false →
          Yields (exec (.bookmarkLookupResult b) s) (fun t =>
            (t.bay b).pass = some { p with
              looked := true, hit := true, slot := 0x480000 + m.slot * (s.bay b).slotSize, writeBm := true } ∧
            (t.bay b).bmHits = satInc (s.bay b).bmHits ∧ { m with recent := p.acc } ∈ (t.bay b).bookmarks))) ∧
      (p.copied = true → p.looked = true → p.inputDone = false → p.writeBm = true → s.isSecond b = false →
        exec (.inputWriteComplete b) s = .next (((((s.modCarrel (carrelAt (e.x0 + v.inDx) (e.y0 + v.inDy)) (fun k =>
          { k with sram := k.sram.write Memory.blank v.inBase p.req.input })).freeSlot p.req).modPass b (fun q =>
          { q with inputDone := true, startIssued := true })).issueWord b { op := 1 }).settle))) ∧
    ((s.bay b).phase = .refreshing →
      ((s.bay b).writing = none → (s.bay b).next = [] → p.req.vslot = (s.bay b).lastSlot →
        (∀ d, s.timetable b e p.req.vslot d = none) →
        ∃ u : State, exec (.refreshComplete b ecc) s = .next u.settle ∧ (u.bay b).warm = true ∧ (u.bay b).phase = .idle ∧
          (c ∈ e.carrels → ∀ x, (u.carrel c).sram.byte Memory.blank x =
            if v.workBase ≤ x ∧ x < 49152 then (s.carrel c).stackMem.byte Memory.blank (v.region + x)
            else (s.carrel c).sram.byte Memory.blank x)) ∧
      ((s.bay b).writing = some q →
        ((∀ r ∈ ecc, r.2.bad = false) → exec (.refreshComplete b ecc) s = exec (.refreshComplete b [])
          (ecc.foldl (fun t r => t.countSram r.1.folio r.2) (s.modBay b (fun x => { x with writing := none })) |>.writeBack b q)) ∧
        ((∃ r ∈ ecc, r.2.bad = true) → ∃ u : State, exec (.refreshComplete b ecc) s = .next u.settle ∧
          (u.bay b).bookmarks = (s.bay b).bookmarks ∧ (u.bay b).writing = none)))

/-- R288, R289, R150, R138, R149, R158: shelving keeps a carrel's registers with their pass counts, tile, switch, SRAM and
whether it exited, and gives them back; the bay's shelved pass is resumed by RESUME; a terminating recall that was issued
while a PREEMPT is shelved ends the pass, as does one pending when it stands again. The clauses on an uncorrectable word
rest on log entry 166, the model's choice. That pass counts go with the pass is deduced (log entry 170). -/
def Obligations.ShelvingKeepsThePass : Prop :=
  ∀ (s : State) (b : BayId) (p : Pass) (k : Carrel) (ticket : BitVec 16) (counted : Bool) (allow : BitVec 2)
    (ecc : List (CarrelId × Ecc)) (bad : CarrelId × Ecc),
    let u : State := ecc.foldl (fun t q => t.countSram q.1.folio q.2) s
    let v : State := s.endWriteBack b ecc
    (s.fabricRuns = true → (s.bay b).pass = some p → (s.bay b).phase = .shelvingOut →
      ((∀ q ∈ ecc, q.2.bad = false) →
        (p.stopped = 0 → (∀ c ∈ s.bayCarrels b, (s.carrel c).regs.st.overrun = false) →
          exec (.shelveOutComplete b ecc) s = .next ((u.mapBay b (fun _ k => k.shelveOut)).modBay b (fun x =>
            { (x.take false).dropWords with shelved := some p, urgentDone := 0, warm := false })).settle) ∧
        (p.stopped ≠ 0 → exec (.shelveOutComplete b ecc) s = .next (u.endPending b p.stopped).settle) ∧
        (p.stopped = 0 → (∃ c ∈ s.bayCarrels b, (s.carrel c).regs.st.overrun = true) →
          exec (.shelveOutComplete b ecc) s = .next ((u.stopPassOne b (u.aborted 1)).endPending b 5).settle)) ∧
      (ecc.find? (fun q => q.2.bad) = some bad → exec (.shelveOutComplete b ecc) s =
        .next (((u.modCarrel bad.1 (fun k => k.raise 0x07)).stopPassOne b
          { status := 1, detail := 3, cause := 4, tick := s.clk.tick }).endPending b 4).settle)) ∧
    (s.fabricRuns = true → (s.bay b).shelved = some p → (s.bay b).phase = .shelvingIn →
      let back : State := ((v.mapBay b (fun c k =>
        k.shelveIn b (p.epoch ++ p.req.reader) (p.exited.contains c.key) (v.folio c.folio).allow)).clearHomes b).modBay b
        (fun x => { x with phase := .resumeIssued, shelved := none, lastSlot := p.req.vslot,
                           pass := some { p with quiesced := [], recallIn := 0 } })
      (v.pendingCause b = 0 ∨ v.pendingCause b = 1 → exec (.shelveInComplete b ecc) s =
        .next ((back.mapBay b (fun _ k => { k with regs := { k.regs with
          rc := { k.regs.rc with pending := false, pendingCause := 0 } } })).issueWord b
          { op := 2, recallIn := v.pendingCause b }).settle) ∧
      (v.pendingCause b ≠ 0 → v.pendingCause b ≠ 1 → exec (.shelveInComplete b ecc) s =
        .next (back.endPending b (v.pendingCause b)).settle)) ∧
    (let back := (k.shelveOut.shelveIn b ticket counted allow)
     back.sram = k.sram ∧ back.stackMem = k.stackMem ∧ back.regs.g = k.regs.g ∧ back.regs.a = k.regs.a ∧
     back.regs.p = k.regs.p ∧ back.regs.pc = k.regs.pc ∧ back.regs.pg = k.regs.pg ∧ back.regs.tile = k.regs.tile ∧
     back.regs.switch = k.regs.switch ∧ back.regs.st = { k.regs.st with allow := allow } ∧
     back.regs.rc.cause = k.regs.rc.cause ∧ back.regs.rc.recalls = k.regs.rc.recalls ∧
     back.exitDone = k.exitDone ∧ back.reserved = none ∧ back.run = .quiesced ∧ back.save = none)

/-- R11, R94, R139, R140, R159, R209, R353, R423 to R425: a pass or a request whose loan has run out is recalled as overdue,
and no earlier; at the release boundary a payload is released or withheld, and none is released, nor compared, at a loan
period; duplex payloads that agree count as compared, and those that differ as a mismatch whose first differing byte is
captured; after a stacks refresh the carrel's own request goes first. Where the release boundary of a dilated beat lies is
the model's choice (log entry 169). -/
def Obligations.LoansReleaseAndComparison : Prop :=
  ∀ (s : State) (b c : BayId) (e : BayEntry) (p q : Pass) (d : CarrelId),
    let overdue : Ending := { status := 2, cause := 2, tick := s.clk.tick }
    let stops (u : State) : State := ((u.modPass b (fun q =>
      { q with stopped := recallMax q.stopped 2,
               ending := if q.released then q.ending else some (Ending.merge q.ending overdue) })).issueRecall b 2)
    (s.portShelves d = true → exec (.stacksRefresh d) s = .next s) ∧
    (s.portShelves d = false →
      exec (.stacksRefresh d) s = .next (s.modCarrel d (fun k => { k with cellTurn := true }))) ∧
    (s.tickRuns = true → (s.bay b).pass = some p → (s.bay b).phase = .running → (s.bay b).next = [] →
      s.partner b = none → p.released = false → p.recorded = false →
      (p.passLoan.toNat ≤ (s.clk.tick - p.admitted).toNat → exec (.passLoanExpiry b false) s = .next (stops s).settle) ∧
      ((s.clk.tick - p.admitted).toNat < p.passLoan.toNat → exec (.passLoanExpiry b false) s = .next s.settle) ∧
      (s.bayIds = [b] → s.isSecond b = false → (s.bay b).shelved = none →
        (p.reqLoan.toNat ≤ (s.clk.tick - p.admitted).toNat →
          exec (.requestLoanExpiry p.acc) s = .next (stops s).settle) ∧
        ((s.clk.tick - p.admitted).toNat < p.reqLoan.toNat → exec (.requestLoanExpiry p.acc) s = .next s.settle))) ∧
    (s.fabricRuns = true → s.bayEntry b = some e → (s.bay b).pass = some p → p.gated = false →
      (s.bay b).phase = .running → (s.carrel e.egress).regs.switch.rxDone.isSome →
      let gate := s.modPass b (fun r => { r with gated := true })
      (s.releaseDue b e = false → exec (.egressRelease b) s = .next s) ∧
      (s.releaseDue b e = true →
        (s.partner b = some c → exec (.egressRelease b) s = .next (gate.checkComplete b).settle) ∧
        (s.partner b = none →
          (p.report = true ∨ p.late = true ∨ p.payload = none →
            exec (.egressRelease b) s = .next (gate.checkComplete b).settle) ∧
          (p.report = false → p.late = false → p.payload.isSome → p.ending = none → p.recorded = false →
            p.released = false → s.cur.taking = false →
            (s.loanReached p = true → exec (.egressRelease b) s = .next ((stops gate).checkComplete b).settle) ∧
            (s.loanReached p = false → exec (.egressRelease b) s =
              .next (((gate.endRequest b { p with gated := true } { status := 0, tick := s.clk.tick } false).modPass b
                (fun r => { r with released := true, recorded := true })).checkComplete b).settle))))) ∧
    (∀ pa qa, s.fabricRuns = true → s.partner b = some c → b ≠ c → s.isSecond b = false → s.cur.taking = false →
      (s.bay b).pass = some p → (s.bay c).pass = some q → p.payload = some pa → q.payload = some qa →
      p.gated = true → q.gated = true → p.recorded = false → q.recorded = false → p.acc = q.acc →
      p.ending = none → q.ending = none → p.report = false → q.report = false → p.late = false → q.late = false →
      (s.loanReached p = true → exec (.duplexCompare b) s = .next (s.stopPass b overdue).settle) ∧
      (s.loanReached p = false →
        ∃ u : State, exec (.duplexCompare b) s = .next u.settle ∧ u.int.compared = satInc s.int.compared ∧
          (pa = qa → u.int.mismatches = s.int.mismatches) ∧
          (pa ≠ qa → u.int.mismatches = satInc s.int.mismatches ∧ u.int.evMismatch = true ∧
            (s.int.misValid = false → u.int.misValid = true ∧ u.int.misAcc = p.acc ∧ u.int.misFirst = b ∧
              u.int.misSecond = c ∧
              u.int.misOffset = BitVec.ofNat 12 (((pa.zip qa).takeWhile (fun x => x.1 == x.2)).length)))))

/-! ### The routed plane, homes and peer links (chapters 9, 10 and 16) -/

/-- R77, R210, R213, R214, R216, R218, R219, R222, R223, R227, Tables 9.1, 9.2 and 9.5: a packet at a router input. Words
beyond correction, a header that Table 9.3 does not list, SYS from a carrel row, a ticket that no entry allows and a wafer
that no link leads to discard it whole, counted and captured; one that passes goes on, x before y, to the next router or to
its endpoint. After an uncorrectable word both routers send credit-sync words, and a SYNC word sets the credits of its link.
Flits and link words carry every field of a packet. Log entries 175 and 178, the model's choice: a packet waits on its wire
for room, and the first cause in the order above counts. So are the causes of a listed type with another SYS or LEN and of
an endpoint that is not there (log entries 177 and 176). -/
def Obligations.RoutersForwardOrDiscard : Prop :=
  (∀ (p : Packet) (sync tail head valid : Bool) (credit : BitVec 4) (body : BitVec 112),
    Packet.ofFlits p.headFlit p.opFlit p.data = { p with span := 0 } ∧
    (let w := linkWordOf sync tail head valid credit body
     linkBody w = body ∧ linkValid w = valid ∧ linkHead w = head ∧ linkTail w = tail ∧ w.getLsbD 119 = sync ∧
     w.extractLsb' 112 4 = credit)) ∧
  ∀ (s : State) (a : AlcoveId) (port : RouterPort) (p : Packet) (w : Transit) (chk : LinkChecks) (one : LinkCheck)
    (v : SyncTransit) (ch : Nat),
    let q := w.pkt
    let x := s.folio a.folio
    let u := s.takeOff (.router a port) p
    let own := chk.flits.take q.flits
    let empty := ∀ d, (s.router d).buf = []
    let out := exec (.packetHop a port p chk) s
    let captured (t : State) (cause : Nat) : Prop := x.capture.valid = false →
      (t.folio a.folio).capture = {
        ticket := q.ticket, a := BitVec.ofNat 5 (a.ax.val % 17), b := BitVec.ofNat 5 (a.ay.val % 17),
        port := BitVec.ofNat 4 port.val, cause := BitVec.ofNat 3 cause, valid := true }
    let exchanged (was new : List SyncTransit) : Prop := ∀ n, neighbourRouter a port = some n → new = was ++
      [⟨n, facing port, (s.router a).syncWord port⟩, ⟨a, port, (s.router n).syncWord (facing port)⟩]
    (s.inputThere a port = false → out = .next s ∧ exec (.syncWord a port one) s = .next s) ∧
    (s.inputThere a port = true → s.folioRouts a.folio = false → out = .next (s.wakeToward a.folio) ∧
      exec (.syncWord a port one) s = .next s) ∧
    (s.inputThere a port = true → s.folioRouts a.folio = true →
      (s.nextPacket (.router a port) p = none → out = .next s) ∧
      (s.nextPacket (.router a port) p = some w → (s.router a).room port q = false → out = .next s) ∧
      (s.nextPacket (.router a port) p = some w → (s.router a).room port q = true →
        (.double ∈ own → Yields out (fun t => t.net = u.net ∧ t.routers = s.routers ∧ exchanged s.syncs t.syncs ∧
          (t.folio a.folio).linkUe = satAdd x.linkUe ((chk.idle ++ own).count .double) ∧
          (t.folio a.folio).linkCe = satAdd x.linkCe ((chk.idle ++ own).count .single) ∧
          (t.folio a.folio).dropHdr = satInc x.dropHdr)) ∧
        (.double ∉ own →
          (Packet.typeOk q = false ∨ s.portOk q = false → Yields out (fun t => t.net = u.net ∧
            (t.folio a.folio).dropHdr = satInc x.dropHdr ∧ captured t 3)) ∧
          (Packet.typeOk q = true → s.portOk q = true →
            (q.sys = true → 4 ≤ port.val → port.val < 8 → Yields out (fun t => t.net = u.net ∧
              (t.folio a.folio).dropSys = satInc x.dropSys ∧ captured t 2)) ∧
            (q.sys = false → (s.router a).allows q.ticket port = false → Yields out (fun t => t.net = u.net ∧
              (t.folio a.folio).dropTicket = satInc x.dropTicket ∧ captured t 1)) ∧
            ((q.sys = true ∧ (port.val < 4 ∨ port = 8)) ∨ (q.sys = false ∧ (s.router a).allows q.ticket port = true) →
              (q.dw ≠ s.ownWafer → w.via = none → s.chooseLink q = none → Yields out (fun t => t.net = u.net ∧
                (t.folio a.folio).dropRoute = satInc x.dropRoute ∧ captured t 4)) ∧
              (q.dw = s.ownWafer → w.via = none → empty →
                (q.dax.toNat = a.ax.val → q.day.toNat = a.ay.val → Yields out (fun t =>
                  t.net = u.net ++ [⟨.endpoint, q, none⟩] ∧ (t.router a).buf = [])) ∧
                (a.ax.val < q.dax.toNat → a.ax.val + 1 < 136 → q.flits ≤ (s.router a).free 1 q.channel →
                  s.folioRouts (alcoveAt (a.ax.val + 1) a.ay.val).folio = true → Yields out (fun t =>
                    t.net = u.net ++ [⟨.router (alcoveAt (a.ax.val + 1) a.ay.val) 3, q, none⟩] ∧
                    (t.router a).buf = [] ∧
                    (t.router a).free 1 q.channel = (s.router a).free 1 q.channel - q.flits))))))) ∧
      (s.syncs.find? (fun w => w.at_ == a && w.port == port) = none → exec (.syncWord a port one) s = .next s) ∧
      (s.syncs.find? (fun w => w.at_ == a && w.port == port) = some v →
        (one ≠ .double → empty → ch < 4 → Yields (exec (.syncWord a port one) s) (fun t =>
          t.syncs = s.syncs.erase v ∧ (t.router a).free port ch = natBits (linkBody v.word).toNat (4 * ch) 4)) ∧
        (one = .double → Yields (exec (.syncWord a port one) s) (fun t =>
          exchanged (s.syncs.erase v) t.syncs ∧ t.routers = s.routers ∧
          (t.folio a.folio).linkUe = satAdd x.linkUe 1))))

/-- R139, R215, R231, R233, R234, R243, R244, R245, Table 10.5: a request at its home, in the order of arrival there. READ
answers the value, WRITE writes and then acknowledges and clears the entries of its granule, RESV sets its requester's entry
and reads, COND writes only where its entry stands and no other requester heads the queue; one whose sender does not reach
the location gets nothing, and one whose PCRC fails performs nothing and is answered CRC; after a remote request the
carrel's own go next at its port. R246: a queued requester that sent no COND within 100 ticks of its last failure leaves the
queue, and no other (counted in external ticks: the model's choice, log entry 10). Which agent a source port is, and the
turn at a stacks port, are deduced (log entries 179 and 180). -/
def Obligations.HomesPerformRequests : Prop :=
  (∀ (s : State) (call : BitVec 48) (r : BitVec 32) (l : Location) (q : QueueEntry), s.locate call = some l →
    Yields (exec (.reservationQueueTimeout call r) s) (fun t =>
      (t.home l.home).entries = (s.home l.home).entries ∧ (∀ h, h ≠ l.home → t.home h = s.home h) ∧
      (q ∈ (t.home l.home).queue ↔ q ∈ (s.home l.home).queue ∧
        ¬(q.granule = l.granule ∧ q.requester = r ∧ q.failed + 100 ≤ s.ext)) ∧
      { t with homes := s.homes } = s)) ∧
  ∀ (s : State) (p : Packet) (w : Transit) (l : Location) (ecc : Ecc),
    let q := w.pkt
    let u := s.takeOff .endpoint p
    let h := s.home l.home
    let g := l.granule
    let okd := h.condOk g q.requester q.ticket
    let bs := (flitBytes q.data).take q.count
    let cmds : List (BitVec 4 × Instr) := [(1, .read p ecc), (2, .write p ecc), (3, .resv p ecc), (4, .cond p ecc)]
    let turn (t : State) : State :=
      match l with
      | .stackMem c _ => t.modCarrel c (fun k => { k with cellTurn := true })
      | _ => t
    s.onWire .endpoint p = some w → q.reply = false →
    (s.endpointOpen q = false ∨ s.firstAtHome w = false ∨ s.homeTakes q = false → ∀ c ∈ cmds, exec c.2 s = .next s) ∧
    (s.endpointOpen q = true → s.firstAtHome w = true → s.homeTakes q = true →
      (q.crcOk = true → s.locate q.call = none → ∀ c ∈ cmds, c.1 = q.type → exec c.2 s = .next u) ∧
      (q.crcOk = true → s.locate q.call = some l → s.senderReaches q l = false → ∀ c ∈ cmds, c.1 = q.type →
        exec c.2 s = .next u) ∧
      (q.crcOk = true → s.locate q.call = some l → l.capacity ≠ 0 → s.senderReaches q l = true →
        s.homePort l = (alcoveAt q.dax.toNat q.day.toNat, q.dport.toNat) →
        (q.type = 1 →
          exec (.read p .clean) s = .next (turn (u.reply_ (q.answer 1 0 (s.readLoc l q.count)))) ∧
          Yields (exec (.read p .uncorrectable) s) (fun t => ∃ data, t.net = (u.reply_ (q.answer 1 1 data)).net)) ∧
        (q.type = 2 →
          exec (.write p .clean) s = .next (turn ((u.writeLoc l bs).reply_ (q.answer 2 0 []))) ∧
          (0 < bs.length → ∀ e ∈ ((u.writeLoc l bs).home l.home).entries, e.granule ≠ g) ∧
          Yields (exec (.write p .uncorrectable) s) (fun t => t.net = (u.reply_ (q.answer 2 1 [])).net ∧
            t.archive = s.archive ∧ t.homes = s.homes)) ∧
        (q.type = 3 → Yields (exec (.resv p .clean) s) (fun t =>
          t.net = (u.reply_ (q.answer 1 0 (s.readLoc l q.count))).net ∧
          ⟨g, q.requester, q.ticket⟩ ∈ (t.home l.home).entries ∧
          (∀ e ∈ (t.home l.home).entries, e.requester = q.requester → e = ⟨g, q.requester, q.ticket⟩) ∧
          (h.entries.length ≤ l.capacity → (t.home l.home).entries.length ≤ l.capacity))) ∧
        (q.type = 4 →
          (okd = true → exec (.cond p .clean) s = .next (turn
            (((u.writeLoc l bs).modHome l.home (fun h => h.leave g q.requester)).reply_ (q.answer 2 0 [])))) ∧
          (okd = false → exec (.cond p ecc) s = .next (turn
            ((u.modHome l.home (fun h => h.enqueue g q.requester s.ext)).reply_ (q.answer 2 3 [])))))) ∧
      (q.crcOk = false →
        let c := u.modFolio q.dstFolio (fun x => { x with pcrcFail := satInc x.pcrcFail })
        (q.type = 2 → exec (.write p ecc) s = .next (c.reply_ (q.answer 2 2 []))) ∧
        (q.type = 4 → exec (.cond p ecc) s = .next (c.reply_ (q.answer 2 2 []))) ∧
        (q.type = 1 → Yields (exec (.read p ecc) s) (fun t => ∃ data, t.net = (c.reply_ (q.answer 1 2 data)).net ∧
          t.carrels = s.carrels ∧ t.archive = s.archive ∧ t.homes = s.homes)) ∧
        (q.type = 3 → Yields (exec (.resv p ecc) s) (fun t => ∃ data, t.net = (c.reply_ (q.answer 1 2 data)).net ∧
          t.carrels = s.carrels ∧ t.archive = s.archive ∧ t.homes = s.homes))))

/-- R173, R174, R215, R224, R245: a reply at its carrel. The last piece of a load writes its registers; an ACK takes its store away,
and the last store of an exited carrel lets it report; a conditional store's reply sets g[rd] to 0 or 1; a reply that
reports an error faults the carrel. R215, R379, R381, R382: at a curator, CTRL makes a part ready or not ready (what its message
says is an operand: log entry 47, the model's choice), an ABORT wave already recorded changes nothing but the count, and a new
one is recorded, sent on and aborts the bay; a packet whose PCRC fails performs nothing. -/
def Obligations.RepliesAndWavesArrive : Prop :=
  ∀ (s : State) (p : Packet) (w : Transit) (ld : PendingLoad) (piece : LoadPiece) (st : PendingStore)
    (catBay : Word) (wafer : BitVec 11) (ready : Bool) (b : BayId),
    let q := w.pkt
    let c := q.dstCarrel
    let k := s.carrel c
    let u := s.takeOff .endpoint p
    let bad : Prop := q.status = 1 ∨ q.status = 2
    let bytes := flitBytes q.data
    (s.onWire .endpoint p = some w → q.reply = true → s.endpointOpen q = true →
      (q.crcOk = true → q.dport.toNat < 16 →
        (q.type = 1 → k.loads = [ld] → ld.pieces = [piece] → piece.tag = q.tag → ld.isCond = false →
          (¬bad → exec (.data p) s = .next (u.setCarrel c { k with
            loads := []
            regs := k.regs.load ld.reg ld.size (ld.buf.take piece.off ++ bytesAt bytes 0 piece.len ++ ld.buf.drop (piece.off + (bytesAt bytes 0 piece.len).length)) })) ∧
          (bad → k.run = .running → exec (.data p) s = .next (u.setCarrel c
            (({ k with loads := [] } : Carrel).raise (if ld.space = 0 then 0x07 else 0x08))))) ∧
        (q.type = 2 → k.stores = [st] → st.tag = q.tag → ¬bad → exec (.ack p) s = .next (u.setCarrel c
          { k with stores := [], repExited := k.repExited || k.exitDone })) ∧
        (q.type = 2 → k.stores = [] → k.loads = [ld] → ld.pieces = [piece] → piece.tag = q.tag → ld.isCond = true → ¬bad →
          exec (.ack p) s = .next (u.setCarrel c
            { k with loads := [], regs := k.regs.setG ld.reg (if q.status = 3 then 1 else 0) }))) ∧
      (16 ≤ q.dport.toNat → q.crcOk = true → (q.type = 1 → exec (.data p) s = .next u) ∧
        (q.type = 2 → exec (.ack p) s = .next u)) ∧
      (16 ≤ q.dport.toNat → q.crcOk = false → q.type = 2 → exec (.ack p) s =
        .next (u.modFolio q.dstFolio (fun x => { x with pcrcFail := satInc x.pcrcFail })))) ∧
    (s.fabricRuns = true → s.nextPacket .endpoint p = some w → q.reply = false → Packet.typeOk q = true → q.dport = 16 →
      s.isBlocked q.dstFolio = false →
      (curatorAlcoves false ++ curatorAlcoves true).contains (alcoveAt q.dax.toNat q.day.toNat) = true →
      (q.type = 8 →
        (q.crcOk = false → exec (.ctrl p catBay wafer ready) s = .next (u.crcRefused q)) ∧
        (q.crcOk = true → s.catBayOf catBay = none → exec (.ctrl p catBay wafer ready) s = .next u) ∧
        (q.crcOk = true → s.catBayOf catBay = some b →
          exec (.ctrl p catBay wafer true) s = .next (u.modBay b (fun x =>
            { x with partsNotReady := x.partsNotReady.filter (fun v => v != wafer) })).settle ∧
          exec (.ctrl p catBay wafer false) s = .next (u.modBay b (fun x =>
            { x with partsNotReady := x.partsNotReady.filter (fun v => v != wafer) ++ [wafer] })).settle)) ∧
      (q.type = 9 →
        let wave := waveOf bytes
        let n : State := { u with lnk := { s.lnk with received := satInc s.lnk.received } }
        (q.crcOk = false → exec (.abort p) s = .next (u.crcRefused q)) ∧
        (q.crcOk = true → s.catBayOf wave.catBay = none → exec (.abort p) s = .next u) ∧
        (q.crcOk = true → s.catBayOf wave.catBay = some b →
          ((wave.origin, wave.wave) ∈ (s.bay b).waves → exec (.abort p) s = .next n) ∧
          ((wave.origin, wave.wave) ∉ (s.bay b).waves → (s.bay b).waveSet = none → exec (.abort p) s =
            .next (((((n.modBay b (fun y => { y with waves := y.waves ++ [(wave.origin, wave.wave)] })).forwardWave b wave
              (some q.sw)).chooseSet b wave.set.toNat).abortBay b (s.aborted 5)).settle)))))

/-- R367, R368, R369, R420: a peer link trains stage by stage: a wrong partner is miswired, a good one goes on; an offset below
0.1 ppm is mesochronous; 64 round trips that agree within 2 fix the latency; a failed stage trains again 10 ms later. A
mesochronous link whose offset grows loses stage 4; one within it runs stage 4 again. With no reference nothing of this happens
(R63). Link times are external ticks (the model's choice, log entry 10). -/
def Obligations.PeerLinksTrain : Prop :=
  ∀ (s : State) (l : LinkId) (q : PartnerId) (offset : Word) (trips : List Nat) (n : Nat),
    let k := s.link l
    let meso := offset.toInt.natAbs < 100
    let fails (st : LinkState) : State := s.modLink l (fun k =>
      { k with state := st, stage := 0, passed4 := false, retryAt := some (s.ext + 1000000) })
    (s.peersRun = false → exec (.electricalStage l true) s = .next s ∧ exec (.latencyStage l trips) s = .next s ∧
      exec (.linkOffsetWindow l offset) s = .next s ∧ exec (.linkRetrain l) s = .next s) ∧
    (s.peersRun = true →
    (k.state = .training → k.stage = 1 →
      exec (.electricalStage l true) s = .next (s.modLink l (fun k => { k with stage := 2 })) ∧
      exec (.electricalStage l false) s = .next (fails .failed)) ∧
    (k.state = .training → k.stage = 2 →
      (s.identityOk l q = true → exec (.identityStage l q) s = .next (s.modLink l (fun k =>
        { k with stage := 3, partner := some (q.serial, q.freq) }))) ∧
      (s.identityOk l q = false → exec (.identityStage l q) s =
        .next ({ (fails .miswired) with lnk := { s.lnk with evMiswired := true } } : State))) ∧
    (k.state = .training → k.stage = 3 → k.lastGood = 0 → exec (.frequencyStage l offset true) s =
      .next (s.modLink l (fun k => { k with
        state := if meso then .mesochronous else .routed, stage := if meso then 4 else 0, passed4 := false,
        offset := offset, offValid := true, rxSeq := none, txAck := none, nackSent := false, replayAt := [], words := [],
        partial_ := [], lastGood := s.ext, retryAt := none })).settle) ∧
    (k.state = .training → k.stage = 3 → Yields (exec (.frequencyStage l offset false) s) (fun t =>
      (t.link l).disable = true ∧ (t.link l).state = .failed ∧ bitOf t.int.failed 15 = true)) ∧
    (k.state = .mesochronous → k.stage = 4 → trips.length = 64 →
      ((∀ v ∈ trips, v ≤ n) → n ∈ trips → (∀ v ∈ trips, n ≤ v + 2) → 94 * n ≤ 4000000 →
        exec (.latencyStage l trips) s = .next (s.modLink l (fun k =>
          { k with stage := 0, passed4 := true, latency := satNat 20 ((94 * n + 9) / 10) })).settle) ∧
      ((∃ v ∈ trips, ∃ u ∈ trips, v + 2 < u) → exec (.latencyStage l trips) s = .next (s.modLink l (fun k =>
        { k with state := .routed, stage := 0, passed4 := false })))) ∧
    (k.retryAt = some n → s.linkMayTrain l = true →
      (s.ext < n → exec (.linkRetrain l) s = .next s) ∧
      (n ≤ s.ext → exec (.linkRetrain l) s = .next (s.modLink l (fun k =>
        { k with state := .training, stage := 1, retryAt := none })))) ∧
    (k.inService = true → k.offValid = true →
      (mesochronous k.offset = true → meso → exec (.linkOffsetWindow l offset) s =
        .next (s.modLink l (fun k => { k with offset := offset, offValid := true }))) ∧
      (mesochronous k.offset = true → ¬meso → s.linkCrossing l = none → Yields (exec (.linkOffsetWindow l offset) s) (fun t =>
        (t.link l).state = .routed ∧ (t.link l).passed4 = false ∧ (t.link l).offset = offset ∧ t.lnk.evMesoLost = true)) ∧
      (mesochronous k.offset = false → meso → Yields (exec (.linkOffsetWindow l offset) s) (fun t =>
        (t.link l).state = .mesochronous ∧ (t.link l).stage = 4 ∧ (t.link l).offset = offset))))

/-- R365, R371, R374, R377: a good codeword is acknowledged, and its words are delivered only when it is the next in order; the
words of a routed packet enter the plane as that packet; a codeword that is not good is answered with NACK and counts a
replay, and the ninth within 600 ticks fails the link; a frozen codeword, or 100 ticks of silence, fails it; a failed link is
counted and trains again later; a word past its delivery cycle ends the running pass. With no reference nothing of this
happens (R63). -/
def Obligations.CodewordsAndLinkFailure : Prop :=
  ∀ (s : State) (l : LinkId) (cw : Codeword) (e : CrossingEntry) (p : Pass) (r : Packet),
    let k := s.link l
    let failed (t : State) : Prop := (t.link l).state = .failed ∧ (t.link l).fails = satInc k.fails ∧
      (t.link l).retryAt = some (s.ext + 1000000) ∧ (t.link l).words = [] ∧ (t.link l).partial_ = [] ∧
      t.lnk.evFailed = true
    let acked : State := s.modLink l (fun k =>
      { k with lastGood := s.ext, fecCe := if cw.corrected then satInc k.fecCe else k.fecCe,
               txAck := if cw.ackValid then some cw.ack else k.txAck })
    (s.peersRun = false ∨ k.inService = false →
      exec (.codeword l cw) s = .next s ∧ exec (.linkSilence l) s = .next s) ∧
    (s.peersRun = true → k.inService = true → s.linkCrossing l = none →
      (cw.good = true → cw.kind ≠ 3 → cw.kind ≠ 2 → cw.nack = false →
        (∀ q, k.rxSeq = some q → cw.seq ≠ q + 1 → exec (.codeword l cw) s = .next acked.settle) ∧
        (∀ q, k.rxSeq = some q → cw.seq = q + 1 → cw.words = [] → exec (.codeword l cw) s =
          .next (acked.modLink l (fun k => { k with rxSeq := some cw.seq, nackSent := false })).settle) ∧
        (∀ q, k.rxSeq = some q → cw.seq = q + 1 → r.span = 0 → cw.words = r.linkWords.map LinkWord.routed →
          ∃ u : State, exec (.codeword l cw) s = .next u.settle ∧
            u.net = s.net ++ [⟨.router (linkAlcove l) 8, { r with cls := s.arriveClass r l }, none⟩] ∧
            (u.link l).partial_ = [] ∧ (u.link l).rxSeq = some cw.seq ∧ (u.link l).words = k.words ∧
            (∀ m, m ≠ l → u.link m = s.link m) ∧ { u with links := s.links, net := s.net } = s)) ∧
      (cw.good = false → (k.replayAt.filter (fun r => decide (s.ext < r + 600))).length < 8 →
        exec (.codeword l cw) s = .next ((s.modLink l (fun k => { k with nackSent := true })).modLink l (fun k =>
          { k with replays := satInc k.replays,
                   replayAt := k.replayAt.filter (fun r => decide (s.ext < r + 600)) ++ [s.ext] })).settle) ∧
      (cw.good = false → 8 ≤ (k.replayAt.filter (fun r => decide (s.ext < r + 600))).length →
        ∃ u : State, exec (.codeword l cw) s = .next u.settle ∧ failed u) ∧
      (cw.good = true → cw.kind = 3 → ∃ u : State, exec (.codeword l cw) s = .next u.settle ∧ failed u) ∧
      (k.lastGood + 100 ≤ s.ext → ∃ u : State, exec (.linkSilence l) s = .next u.settle ∧ failed u) ∧
      (s.ext < k.lastGood + 100 → exec (.linkSilence l) s = .next s)) ∧
    (s.linkCrossing l = some e → s.fabricRuns = true → (s.bay e.bay).phase = .running → (s.bay e.bay).pass = some p →
      s.partner e.bay = none →
      exec (.crossingDeadline l) s = .next (((((({ s with int := { s.int with evPlane := true } } : State).modPass e.bay
        (fun q => { q with report := true })).modPass e.bay (fun q =>
          { q with stopped := recallMax q.stopped 5,
                   ending := if q.released then q.ending else some (Ending.merge q.ending
                     { status := 1, detail := 5, cause := 5, tick := s.clk.tick }) })).issueRecall e.bay 5)).settle))

/-! ### The host link (chapters 14 and 15) -/

/-- R325, R321, R323, R324, R320, R326, Table 14.16: the rings. A doorbell whose tail lies below 2^s and is not behind what is
already announced announces the descriptors up to it, all with one capture tick; any other is dropped and counted, as is one
while the ring is off; one waits before READY and in a dead freeze. A new head frees only what was written and is dropped and
counted otherwise; an enabled ring starts at 0 with PHASE 1; s outside 4 to 12, a window that wraps and a change of an enabled
ring are dropped and counted. -/
def Obligations.RingsAndTheirConfiguration : Prop :=
  ∀ (s : State) (r : ReaderId) (v : BitVec 12) (bits size : BitVec 4) (base : Word) (win : DWord),
    let x := s.reader r
    let n := 2 ^ x.reqRing.size.toNat
    let bad : State := s.modReader r (fun x => { x with badWrites := satInc x.badWrites })
    let ahead (t : BitVec 12) : Nat := (t.toNat + n - x.reqRing.head.toNat) % n
    let frees (g : Ring) : Prop := v.toNat < 2 ^ g.size.toNat ∧
      (v.toNat + 2 ^ g.size.toNat - g.head.toNat) % 2 ^ g.size.toNat ≤
        (g.tail.toNat + 2 ^ g.size.toNat - g.head.toNat) % 2 ^ g.size.toNat
    (s.hostReaches r = true →
      (s.cur.stage ≠ .ready → s.captureWaits = true) ∧ ((∃ p, s.act = .dead p) → s.captureWaits = true) ∧
      (s.captureWaits = true → exec (.doorbell r v) s = .next (s.modPort (readerPort r) (fun p =>
        { p with waiting := p.waiting ++ [(r, .doorbell v)] }))) ∧
      (s.captureWaits = false → x.reqEn = false → exec (.doorbell r v) s = .next bad.settle) ∧
      (s.captureWaits = false → x.reqEn = true → s.mayCapture r = true →
        (n ≤ v.toNat ∨ ahead v < ahead x.reqRing.tail → exec (.doorbell r v) s = .next bad.settle) ∧
        (v.toNat < n → ahead x.reqRing.tail ≤ ahead v →
          ∃ u : State, exec (.doorbell r v) s = .next u.settle ∧ (u.reader r).reqRing = { x.reqRing with tail := v } ∧
            (u.reader r).announced.length = x.announced.length + (ahead v - ahead x.reqRing.tail) ∧
            (∀ a ∈ (u.reader r).announced, a ∈ x.announced ∨ a.2.1 = s.clk.tick) ∧
            (u.port (readerPort r)).captures =
              satAdd (s.port (readerPort r)).captures (ahead v - ahead x.reqRing.tail) ∧
            u.arrivals = s.arrivals + (ahead v - ahead x.reqRing.tail)))) ∧
    (s.rdrWrites r = true →
      (frees x.verRing → exec (.verHead r v) s =
        .next (s.modReader r (fun x => { x with verRing := { x.verRing with head := v } })).settle) ∧
      (¬frees x.verRing → exec (.verHead r v) s = .next bad) ∧
      (frees x.notRing → exec (.notHead r v) s =
        .next (s.modReader r (fun x => { x with notRing := { x.notRing with head := v } })).settle) ∧
      (¬frees x.notRing → exec (.notHead r v) s = .next bad) ∧
      (bitOf bits 1 = true → x.verEn = false → (x.verRing.size.toNat < 4 ∨ 12 < x.verRing.size.toNat) →
        exec (.rdrControl r bits) s = .next bad) ∧
      (x.reqEn = false → x.verEn = false → x.notEn = false → x.reading = none → bits = 0xF →
        4 ≤ x.reqRing.size.toNat → x.reqRing.size.toNat ≤ 12 → 4 ≤ x.verRing.size.toNat → x.verRing.size.toNat ≤ 12 →
        4 ≤ x.notRing.size.toNat → x.notRing.size.toNat ≤ 12 →
        ∃ u : State, exec (.rdrControl r bits) s = .next u.settle ∧
          (let y := u.reader r
           y.reqEn = true ∧ y.verEn = true ∧ y.notEn = true ∧ y.dropEn = true ∧ y.announced = [] ∧
           y.verRing = { x.verRing with head := 0, tail := 0, phase := true } ∧
           y.notRing = { x.notRing with head := 0, tail := 0, phase := true } ∧
           y.reqRing = { x.reqRing with head := 0, tail := 0, phase := true })) ∧
      (win.toNat / 4096 * 4096 + 2 ^ 32 ≤ 2 ^ 64 → exec (.rdrWindow r win) s = .next (s.modReader r (fun x =>
        { x with window := BitVec.ofNat 64 (win.toNat / 4096 * 4096) }))) ∧
      (2 ^ 64 < win.toNat / 4096 * 4096 + 2 ^ 32 → exec (.rdrWindow r win) s = .next bad) ∧
      (x.verEn = true → exec (.ringConfig r .ver base size) s = .next bad) ∧
      (x.verEn = false → exec (.ringConfig r .ver base size) s = .next (s.modReader r (fun x => { x with
        verRing := { x.verRing with base := BitVec.ofNat 32 (base.toNat / 4096 * 4096), size := size } }))) ∧
      (x.reqEn = false → exec (.ringConfig r .req base size) s = .next (s.modReader r (fun x => { x with
        reqRing := { x.reqRing with base := BitVec.ofNat 32 (base.toNat / 4096 * 4096), size := size } }))))

/-- R331, R332, R328, R329, R316, R339, R341: the book drop, host reads and times. A COMMIT of 0xA5 captures a free slot of
an enabled drop, and is dropped and counted in a captured one, as is a write of its bytes; before READY and in a dead freeze both
wait in the port controller; a descriptor read from the host
becomes a candidate or is refused; a failed read ends its request; an owed MSI-X message is sent when it is due; the oldest
held record is discarded after the hold time. Hold and HOLDOFF times are external ticks (the model's choice, log entry 10). -/
def Obligations.DropsReadsAndTimes : Prop :=
  ∀ (s : State) (r : ReaderId) (slot : Fin 8) (word : DWord) (bytes : List Byte) (i : Nat) (v : Fin 4) (h : Held)
    (q : Request) (capture : DWord) (order : Nat),
    let x := s.reader r
    let rejects : State := s.modReader r (fun x => { x with dropRejects := satInc x.dropRejects })
    let waits (o : Nat) (bs : List Byte) : State := s.modPort (readerPort r) (fun p =>
      { p with waiting := p.waiting ++ [(r, .drop o bs)] })
    (s.hostReaches r = true → s.captureWaits = true →
      exec (.bookDropCommit r slot word) s = .next (waits (512 * slot.val + 504) (leBytes 8 word.toNat)) ∧
      exec (.bookDropWrite r i bytes) s = .next (waits i bytes)) ∧
    (s.hostReaches r = true → s.captureWaits = false →
      (x.drop[slot].captured = true →
        exec (.bookDropCommit r slot word) s = .next rejects.settle ∧
        (i < 504 → exec (.bookDropWrite r (512 * slot.val + i) [bytes.headD 0]) s = .next rejects.settle)) ∧
      (x.drop[slot].captured = false → word ≠ 0xA5 → exec (.bookDropCommit r slot word) s = .next s.settle) ∧
      (x.drop[slot].captured = false → x.dropEn = true → s.mayCapture r = true →
        ∃ u : State, exec (.bookDropCommit r slot 0xA5) s = .next u.settle ∧ (u.reader r).drop[slot].captured = true ∧
          (u.reader r).dropWait.length = x.dropWait.length + 1 ∧
          (u.port (readerPort r)).captures = satAdd (s.port (readerPort r)).captures 1) ∧
      (x.drop[slot].captured = false → i < 504 → ∃ u : State,
        exec (.bookDropWrite r (512 * slot.val + i) [bytes.headD 0]) s = .next u.settle ∧
        (u.reader r).drop[slot].bytes = x.drop[slot].bytes.put Memory.blank i (bytes.headD 0) ∧
        (∀ o : Fin 8, o ≠ slot → (u.reader r).drop[o] = x.drop[o]))) ∧
    (s.pwr.powered = true →
      (x.reading = some (.descriptor capture order) →
        let d := parseDescriptor r (bytesAt bytes 0 64) capture order
        let w := s.modReader r (fun y => { y.passHead with reading := none })
        (s.badDescriptor d = false → d.inInline = false → exec (.hostReadCompletion (.descriptor r) true bytes) s =
          .next (w.modReader r (fun y => { y with reading := some (.room d) })).settle) ∧
        (s.badDescriptor d = false → d.inInline = true → s.cdx.codex.isSome → s.bound r (d.bayRaw.setWidth 12) d.cls = true →
          exec (.hostReadCompletion (.descriptor r) true bytes) s = .next ({ w with cands := s.cands ++ [d] } : State).settle) ∧
        exec (.hostReadCompletion (.descriptor r) false bytes) s =
          .next (w.refuse { reader := r, cls := 3, capture := capture, order := order } 6).settle ∧
        exec (.hostReadTimeout (.descriptor r)) s =
          .next (w.refuse { reader := r, cls := 3, capture := capture, order := order } 6).settle) ∧
      (x.reading = some (.input q) → s.cdx.codex.isSome → s.badDescriptor { q with input := bytesAt bytes 0 q.inLen } = false →
        s.bound q.reader (q.bayRaw.setWidth 12) q.cls = true →
        exec (.hostReadCompletion (.input r) true bytes) s =
          .next ({ (s.modReader r (fun y => { y with reading := none })) with
            cands := s.cands ++ [{ q with input := bytesAt bytes 0 q.inLen }] } : State).settle) ∧
      (x.vectors[v].owed = true → s.msixDue r v = true →
        (x.msixEn = true → x.msixMask = false → x.vectors[v].masked = false → exec (.msixHoldoff r v) s =
          .next (({ s with posted := s.posted ++ [⟨.msix, r, x.vectors[v].addr.toNat, leBytes 4 x.vectors[v].data.toNat⟩] }
            : State).modReader r (fun y => { y with
              vectors := y.vectors.set v { y.vectors[v] with last := some s.ext, owed := false, pba := false } }))) ∧
        (x.msixEn = true → x.vectors[v].masked = true → exec (.msixHoldoff r v) s = .next (s.modReader r (fun y =>
          { y with vectors := y.vectors.set v { y.vectors[v] with owed := false, pba := true } })))) ∧
      (x.held = [h] →
        (s.ext < h.since + s.holdTicks → exec (.holdExpiry r) s = .next s) ∧
        (h.since + s.holdTicks ≤ s.ext → ∃ u : State, exec (.holdExpiry r) s = .next u.settle ∧ (u.reader r).held = [] ∧
          u.portRegs.discards = satInc s.portRegs.discards)))

/-- R52, R340, R343, R356, R357, R438, R439: links and resets of the host ports. A link that goes down, PERST# and a hot reset are
counted or set their events, and put every function of the port at its reset values; a link that comes up, which it does only with
its reference, takes its speed and width; an FLR counts and resets its function; clearing VF Enable takes the functions away; a finished reader reset advances
the epoch and leaves RESET_DONE alone on the shelf. -/
def Obligations.PortsAndFunctionsReset : Prop :=
  ∀ (s : State) (p : PortId) (r : ReaderId) (speed : BitVec 2) (flit on : Bool) (num : BitVec 9),
    let x := s.port p
    s.pwr.powered = true →
    (x.linkUp = true →
      (∃ u : State, exec (.linkDown p) s = .next u.settle ∧ (u.port p).linkUp = false ∧
        (u.port p).downs = satInc x.downs ∧ (u.port p).evDown = true ∧ u.isPresent (BitVec.ofNat 12 (512 * p.val)) = false) ∧
      (∃ u : State, exec (.hotReset p) s = .next u.settle ∧ (u.port p).evHot = true ∧ (u.port p).linkUp = true ∧
        (u.port p).vfEnable = false ∧ (u.port p).numVfs = 0) ∧
      (x.perst = false → ∃ u : State, exec (.perst p) s = .next u.settle ∧ (u.port p).perst = true ∧
        (u.port p).evPerst = true ∧ (u.port p).linkUp = false ∧ (u.port p).vfEnable = false)) ∧
    (bitOf s.clk.present p.val = false → exec (.linkUp p speed flit 8) s = .next s) ∧
    (x.linkUp = false → s.portInService p = true → bitOf s.clk.present p.val = true → speed ≠ 0 → ∃ u : State, exec (.linkUp p speed flit 8) s = .next u.settle ∧
      (u.port p).linkUp = true ∧ (u.port p).speed = speed ∧ (u.port p).flit = flit ∧ (u.port p).width = 8 ∧
      (u.port p).perst = false ∧ (u.port p).evUp = true) ∧
    (s.hostReaches r = true → readerIndex r ≠ 0 → (s.reader r).resetting = false → (s.reader r).deferred = false →
      (s.cdx.load = none → ∃ u : State, exec (.flr r) s = .next u.settle ∧ (u.reader r).resetting = true ∧
        (u.reader r).busMaster = false ∧ (u.reader r).verEn = false ∧ (u.reader r).epoch = (s.reader r).epoch ∧
        (u.port (readerPort r)).flrs = satInc (s.port (readerPort r)).flrs) ∧
      (s.cdx.load.isSome → ∃ u : State, exec (.flr r) s = .next u.settle ∧ (u.reader r).deferred = true ∧
        (u.reader r).verEn = (s.reader r).verEn)) ∧
    (x.linkUp = true → x.vfEnable = true → ∃ u : State, exec (.vfEnableClear p) s = .next u.settle ∧
      (u.port p).vfEnable = false ∧ (u.port p).numVfs = 0) ∧
    (s.hostReaches r = true →
      (on = true → exec (.configurationSpaceWrite r (.busMaster on)) s =
        .next ((s.modReader r (fun x => { x with busMaster := true })).checkAway r).settle) ∧
      ((s.reader r).reading = none → exec (.configurationSpaceWrite r (.d3hot on)) s =
        .next (s.modReader r (fun x => { x with d3hot := on })).settle) ∧
      (on = false → exec (.configurationSpaceWrite r (.msixEnable on)) s =
        .next (s.modReader r (fun x => { x with msixEn := false }))) ∧
      (on = true → exec (.configurationSpaceWrite r (.msixMask on)) s =
        .next (s.modReader r (fun x => { x with msixMask := true }))) ∧
      (readerIndex r = 0 → (s.port (readerPort r)).vfEnable = false →
        exec (.configurationSpaceWrite r (.vfs true num)) s =
          .next (s.modPort (readerPort r) (fun y => { y with vfEnable := true, numVfs := num })).settle)) ∧
    ((s.reader r).resetting = true → s.hasPass r = false → Tbl.wf {} s.routers = true → ∃ u : State, exec (.readerResetQuiesced r) s = .next u.settle ∧
      (u.reader r).epoch = (s.reader r).epoch + 1 ∧ (u.reader r).resetting = false ∧ (u.reader r).held = [] ∧
      (u.reader r).shelf = [⟨0x0C, s.clk.tick, bytesAt (leBytes 1 ((s.reader r).epoch + 1).toNat) 0 16⟩] ∧
      (∀ a e, e ∈ (s.router a).tickets → e.ticket = s.ticketOf r → (s.router a).tickets.length = 1 →
        (u.router a).tickets = [{ e with ticket := u.ticketOf r }]) ∧
      (∀ b ∈ s.bayIds, ∀ m ∈ (u.bay b).bookmarks, m.reader ≠ r))

/-! ### The mailbox, the codex, volumes, flash and the ledger (chapters 11 to 13, 15, 17 and 20) -/

/-- R344, R67, R110, R111, R355, R356, R397, R409, R454, R458, Table 14.13: the mailbox commands. A write in a freeze is dropped; one
before READY, or while a command runs, is answered BUSY with its own tag; else the command runs: a reader reset begins, a
checkpoint is formed, all work ends and the codex goes, an order or answer of the right length is awaited and another is
refused, and a challenge draws a nonce that is written to the host. -/
def Obligations.MailboxCommandsRun : Prop :=
  ∀ (s : State) (tag : BitVec 16), s.pwr.powered = true → s.cur.lost = false →
    let a0 := s.mbx.args[0]
    let len := s.mbx.dataLen.toNat
    let runs (op : MbxOp) : State := { s with mbx := { s.mbx with running := some op, runTag := tag, buf := [] } }
    let answers (c : Instr) (r : CmdResult) (P : State → Prop) : Prop := ∃ u : State, exec c s = .next u.settle ∧
      u.mbx.result = r ∧ u.mbx.running = none ∧ u.mbx.tag = tag ∧ u.mbx.seq = s.mbx.seq + 1 ∧ P u
    let orders : List (Instr × MbxOp) :=
      [(.bookplateWrite tag, .bookplateWrite), (.keyEnroll tag, .keyEnroll), (.keyRevoke tag, .keyRevoke)]
    let all := [Instr.waferReset tag, .bookplateWrite tag, .keyEnroll tag, .keyRevoke tag, .readerReset tag,
      .ledgerCheckpoint tag, .relinquish tag, .challengeIssue tag, .challengeUnlock tag, .challengeRecover tag]
    (s.frozen = true → ∀ c ∈ all, exec c s = .next s) ∧
    (s.frozen = false → (s.cur.stage ≠ .ready ∨ s.mbx.running.isSome) → ∀ c ∈ all, Yields (exec c s) (fun t =>
      t.mbx.result = .busy ∧ t.mbx.tag = tag ∧ t.mbx.seq = s.mbx.seq + 1 ∧ t.mbx.running = s.mbx.running ∧
      t.cdx = s.cdx ∧ t.led = s.led ∧ t.nvs = s.nvs)) ∧
    (s.frozen = false → s.cur.stage = .ready → s.mbx.running = none → s.cur.taking = false →
      (let r : ReaderId := a0.setWidth 12
       s.cdx.load = none → (s.reader r).resetting = false → (s.reader r).deferred = false →
        ∃ u : State, exec (.readerReset tag) s = .next u.settle ∧ (u.reader r).resetting = true ∧
          (u.reader r).resetCmd = true ∧ (u.reader r).verEn = false ∧ u.mbx.running = some .readerReset) ∧
      (s.led.plain = true → answers (.ledgerCheckpoint tag) .refusedState (fun u => u.led = s.led)) ∧
      (s.led.plain = false → s.led.started = true → s.led.cpBusy = false →
        ∃ u : State, exec (.ledgerCheckpoint tag) s = .next u.settle ∧ u.led.cpBusy = true ∧ u.led.cpCmd = true ∧
          u.led.sinceCp = 0 ∧ u.mbx.running = some .ledgerCheckpoint ∧ u.free = s.free + 1) ∧
      (s.archiveWorks = false → s.led.staged ≠ [] → a0.getLsbD 0 = false →
        answers (.waferReset tag) .refusedState (fun u => u.cdx = s.cdx ∧ u.led = s.led)) ∧
      (s.archiveWorks = true ∨ s.led.staged = [] ∨ a0.getLsbD 0 = true → ∃ u : State, exec (.waferReset tag) s = .next u.settle ∧
        u.cdx.codex = none ∧ u.cands = [] ∧
        (s.led.plain = true → u.cur.stage = .bookplate ∧ u.mbx.result = .done ∧ u.mbx.running = none ∧ u.cur.restarts = 0) ∧
        (s.led.plain = false → s.led.started = true → u.led.cpBusy = true ∧ u.mbx.running = some .waferReset)) ∧
      (∀ o ∈ orders,
        (s.cur.mode = .plain → answers o.1 .refusedState (fun u => u.nvs.result = .refusedState ∧ u.nvs.check = 1)) ∧
        (s.cur.mode ≠ .plain → len ≠ 4304 → answers o.1 .badImage (fun u => u.nvs.result = .badImage ∧ u.nvs.check = 2)) ∧
        (s.cur.mode ≠ .plain → len = 4304 → exec o.1 s = .next (runs o.2).settle)) ∧
      (s.cur.mode = .plain → answers (.relinquish tag) .refusedState (fun u => u.led = s.led)) ∧
      (s.cur.mode ≠ .plain → len ≠ 272 → answers (.relinquish tag) .badImage (fun u => u.led = s.led)) ∧
      (s.cur.mode ≠ .plain → len = 272 → exec (.relinquish tag) s = .next (runs .relinquish).settle) ∧
      (a0.toNat / 4 % 4 = 0 ∨ a0.toNat / 4 % 4 = 3 → answers (.challengeIssue tag) .unknown (fun u => u.mbx.nonce = s.mbx.nonce)) ∧
      (a0.toNat / 4 % 4 = 1 → s.relinquished = false →
        answers (.challengeIssue tag) .refusedState (fun u => u.mbx.nonce = s.mbx.nonce)) ∧
      (a0.toNat / 4 % 4 = 2 → answers (.challengeIssue tag) .done (fun u => ∃ c, u.mbx.nonce = some c ∧
        ∃ e ∈ u.posted, e.kind = .challenge ∧ e.fn = s.ownerFn ∧
          e.addr = (s.reader s.ownerFn).window.toNat + (s.mbx.args[1]).toNat ∧ e.bytes.take 64 = c)) ∧
      (len ≠ 272 → answers (.challengeUnlock tag) .refusedAuth (fun u => u.mbx.nonce = none ∧ u.mbx.unlocked = s.mbx.unlocked) ∧
        answers (.challengeRecover tag) .refusedAuth (fun u => u.mbx.nonce = none ∧ u.led = s.led)) ∧
      (len = 272 → exec (.challengeUnlock tag) s = .next (runs .challengeUnlock).settle ∧
        exec (.challengeRecover tag) s = .next (runs .challengeRecover).settle))

/-- R252, R262, R264 to R269, Table 11.11: codex commands. Before READY one is dropped; a load is BUSY while another runs and in a
freeze, refused for a running pass (a bay load apart) and else begins; the header's length and scope are checked first; an image
that passes every check is in force as a whole, with no volume loaded, and one that fails posts its check; UNLOAD leaves no
codex. -/
def Obligations.CodexLoadsAndUnloads : Prop :=
  ∀ (s : State) (index : BitVec 4) (l : CodexLoad) (img : List Byte) (b : BayId),
    let posts (r : CmdResult) : State :=
      { s with cdx := { s.cdx with result := r, check := 0, section_ := 0, item := 0, seq := s.cdx.seq + 1 } }
    let starts (k : LoadKind) : State := { s with cdx := { s.cdx with load := some { kind := k } } }
    let loads : List (Instr × LoadKind) := [(.loadHostWhole, .hostWhole), (.loadFlash, .flash),
      (.loadRomSample index, .sample index), (.loadHostBay, .hostBay)]
    let ends (c : Instr) (r : CmdResult) (check : Nat) : Prop := ∃ u : State, exec c s = .next u.settle ∧
      u.cdx.load = none ∧ u.cdx.result = r ∧ u.cdx.check = BitVec.ofNat 8 check ∧ u.cdx.seq = s.cdx.seq + 1
    (s.cur.stage ≠ .ready ∨ s.cur.lost = true ∨ s.pwr.powered = false →
      exec .unload s = .next s ∧ ∀ o ∈ loads, exec o.1 s = .next s) ∧
    (s.cur.stage = .ready → s.cur.lost = false → s.pwr.powered = true →
      (s.cdx.load.isSome ∨ s.frozen = true ∨ s.cur.taking = true ∨ (∃ ph, s.act = .freqChange ph) →
        exec .unload s = .next (posts .busy) ∧ ∀ o ∈ loads, exec o.1 s = .next (posts .busy)) ∧
      (s.codexBusy = false → s.anyPass = false → ∀ o ∈ loads, exec o.1 s = .next (starts o.2)) ∧
      (s.codexBusy = false → s.anyPass = true → exec .loadHostBay s = .next (starts .hostBay) ∧
        ends .loadHostWhole .refusedState 0 ∧ ends .loadFlash .refusedState 0 ∧ ends (.loadRomSample index) .refusedState 0 ∧
        exec .unload s = .next (posts .refusedState)) ∧
      (s.codexBusy = false → s.anyPass = false → ∃ u : State, exec .unload s = .next u.settle ∧ u.cdx.codex = none ∧
        u.cdx.hash = [] ∧ u.cdx.result = .done ∧ u.cdx.seq = s.cdx.seq + 1)) ∧
    (s.cdx.load = some l → s.frozen = false → s.cur.lost = false → s.cur.stage = .ready →
      (l.kind = .hostWhole → l.headerRead = false → 64 ≤ l.buf.length →
        (s.cdx.srcLen.toNat ≠ imgLength l.buf → ends .codexHeaderRead .badImage 1) ∧
        (s.cdx.srcLen.toNat = imgLength l.buf → s.cdx.srcLen.toNat ≤ 2 ^ 28 → imgScope l.buf = LoadKind.hostWhole.scope →
          exec .codexHeaderRead s = .next { s with cdx := { s.cdx with load := some { l with
            headerRead := true, seq := BitVec.ofNat 32 (imgSeq l.buf), bay := BitVec.ofNat 12 (imgBay l.buf) } } })) ∧
      (l.kind.fromHost = true → l.buf.length < 64 → l.headerRead = false → exec .codexHeaderRead s = .next s) ∧
      (l.headerRead = true → s.loadImage l = some img →
        (l.kind.fromHost = true → img.length < s.cdx.srcLen.toNat → exec .codexLoadEnd s = .next s) ∧
        ((l.kind.fromHost = true → s.cdx.srcLen.toNat = img.length) →
          (∀ e x, s.checkImage l img = (some e, x) → ends .codexLoadEnd e.result e.check) ∧
          (∀ x, s.checkImage l img = (none, x) → l.kind ≠ .hostBay → ∃ u : State, exec .codexLoadEnd s = .next u.settle ∧
            u.cdx.codex = some (parseCodex img) ∧ u.cdx.cseq = BitVec.ofNat 32 (imgSeq img) ∧ u.cdx.hash = imgHash img ∧
            u.cdx.result = .done ∧ u.cdx.load = none ∧ (u.bay b).vslots = [] ∧ (u.bay b).bookmarks = [] ∧
            (Tbl.wf {} s.bays = true → (u.bay b).passes = (s.bay b).passes)))))

/-- R271 to R276, R290, R291, R297, R308, Tables 12.2 and 12.7: the BAY and BKM commands. Before READY one is dropped; it is BUSY while
another or a codex load is in progress and in a freeze, and refused for no bay or a SECOND one; EVICT empties its VSLOT, a
volume that passes its checks is put there with DONE and one that fails posts its check; PAUSE, CONTINUE and RESET do
theirs; INVALIDATE and a change of the archive sets drop bookmarks. Log entry 182, the model's choice: a segment before LAST
that is not a multiple of 4 KiB fails order 3. -/
def Obligations.VolumesAndBayCommands : Prop :=
  ∀ (s : State) (b : BayId) (vslot : Byte) (v : Volume) (l : VolLoad) (sets : BitVec 24) (r : CmdResult) (n : Nat),
    let x := s.bay b
    let g := s.portRegs.bkmSelect
    let posts (u : State) (r : CmdResult) (check : Nat) : State := { u with bayRegs := { u.bayRegs with
      result := r, check := BitVec.ofNat 8 check, seq := u.bayRegs.seq + 1 } }
    let fresh (c : BayId) : VolLoad :=
      { bay := c, vslot := vslot, segLen := s.bayRegs.srcLen.toNat, last := true, reading := true, since := s.ext }
    let opens (c : BayId) : State := { s with bayRegs := { s.bayRegs with load := some (fresh c) } }
    let all := [Instr.evict b vslot, .pause b, .bayContinue b, .bayReset b]
    let resets : State := { s with bayRegs := { s.bayRegs with resetting := some b } }
    (s.cur.stage ≠ .ready ∨ s.cur.lost = true ∨ s.pwr.powered = false →
      ∀ c ∈ Instr.loadVolume b vslot :: all, exec c s = .next s) ∧
    (s.cur.stage = .ready → s.cur.lost = false → s.pwr.powered = true →
      s.frozen = true ∨ s.cdx.load.isSome ∨ s.bayRegs.pausing.isSome ∨ s.bayRegs.resetting.isSome ∨ s.cur.taking = true →
      ∀ c ∈ Instr.loadVolume b vslot :: all, exec c s = .next (posts s .busy 1)) ∧
    (s.cur.stage = .ready → s.cur.lost = false → s.pwr.powered = true → s.bayBusy = false → s.bayRegs.load.isSome →
      ∀ c ∈ all, exec c s = .next (posts s .busy 1)) ∧
    (s.cur.stage = .ready → s.cur.lost = false → s.pwr.powered = true → s.bayBusy = false → s.bayRegs.load = none →
      (s.bayEntry b = none → ∀ c ∈ all, exec c s = .next (posts s .refusedState 2)) ∧
      (s.bayExists b = true → s.isSecond b = true → ∀ c ∈ all, exec c s = .next (posts s .refusedState 3)) ∧
      (s.bayExists b = true → s.isSecond b = false → s.partner b = none →
        (x.volume vslot = none → exec (.evict b vslot) s = .next (posts s .refusedState 4)) ∧
        (x.volume vslot = some v → s.slotUsed b vslot = false → exec (.evict b vslot) s =
          .next (posts (s.modBay b (fun x => x.putVolume vslot none)) .done 0).settle ∧
          ((s.modBay b (fun x => x.putVolume vslot none)).bay b).volume vslot = none) ∧
        (x.paused = false → exec (.pause b) s = .next ({ (s.modBay b (fun x => { x with pausing := true })) with
          bayRegs := { s.bayRegs with pausing := some b } } : State).settle) ∧
        (x.paused = true → exec (.pause b) s = .next (posts s .done 0).settle) ∧
        (x.paused = true → exec (.bayContinue b) s =
          .next (posts (s.modBay b (fun x => { x with pausing := false, paused := false })) .done 0).settle) ∧
        (x.paused = false → x.pausing = false → exec (.bayContinue b) s = .next (posts s .refusedState 5)) ∧
        exec (.bayReset b) s = .next (((x.next.foldl (fun v p => v.endNext b p v.cancelBay) resets).stopPassOne b
          { status := 4, cause := 6, tick := s.clk.tick }).settle)) ∧
      (s.bayExists b = true → s.isSecond b = false → s.slotUsed b vslot = false → s.bayRegs.imgOff = 0 →
        64 ≤ s.bayRegs.srcLen.toNat → s.bayRegs.imgLast = true → exec (.loadVolume b vslot) s =
          .next (opens b)) ∧
      (s.bayExists b = true → s.isSecond b = false → s.slotUsed b vslot = false → s.bayRegs.imgOff = 0 →
        s.bayRegs.srcLen.toNat < 64 ∨ (s.bayRegs.imgLast = false ∧ s.bayRegs.srcLen.toNat % 4096 ≠ 0) →
        exec (.loadVolume b vslot) s = .next (posts s .badImage 3)) ∧
      (s.bayRegs.imgOff ≠ 0 → exec (.loadVolume b vslot) s = .next (posts s .badImage 3))) ∧
    (s.bayRegs.load = some l →
      (l.reading = true → l.last = true → l.segLen = 0 →
        (s.checkVolume l.bay l.vslot l.bytes = .inl (r, n) → exec .volumeLoadEnd s =
          .next (posts ({ s with bayRegs := { s.bayRegs with load := none } } : State) r n)) ∧
        (s.checkVolume l.bay l.vslot l.bytes = .inr v → s.partner l.bay = none → ∃ u : State,
          exec .volumeLoadEnd s = .next u.settle ∧ (u.bay l.bay).volume l.vslot = some v ∧ u.bayRegs.load = none ∧
          u.bayRegs.result = .done ∧ u.bayRegs.seq = s.bayRegs.seq + 1 ∧ (∀ c, c ≠ l.bay → u.bay c = s.bay c))) ∧
      (l.reading = false → l.since + 100000000 ≤ s.ext → exec .volumeLoadAbandon s =
        .next { s with bayRegs := { s.bayRegs with load := none } }) ∧
      (l.reading = true ∨ s.ext < l.since + 100000000 → exec .volumeLoadAbandon s = .next s)) ∧
    (s.writesDropped = false →
      exec .invalidate s = .next (s.modBay g (fun x => { x with bookmarks := [], writing := none })) ∧
      ((s.bay g).free = false → exec (.bkmConfig sets) s = .next (s.modBay g (fun x => { x with bmBadWrite := true }))) ∧
      ((s.bay g).free = true → s.archiveWorks = false → (s.bay g).ovfSets ≠ sets → exec (.bkmConfig sets) s =
        .next (s.modBay g (fun x => { x with ovfSets := sets, bookmarks := x.bookmarks.filter (fun m => !m.archive) }))))

/-- R130, R395, R397, R404 to R406, R414: NVS commands, flash operations, checkpoints and the drain ring. A command is BUSY
while one or an order runs, before READY and in a freeze, is refused in plain mode, as is an image above its area, and else
its work begins; a program or erase that completes changes its bytes alone; a checkpoint that commits is the last one and
counts; a head beyond what was written is dropped and told. The result in plain mode is deduced (log entry 120). -/
def Obligations.FlashCheckpointsAndDrain : Prop :=
  ∀ (s : State) (j : FlashJob) (rest : List FlashJob) (off len a slot : Nat) (bs : List Byte) (y : FlashStep)
    (ys : List FlashStep) (head : BitVec 20),
    let cmds : List (Instr × NvsCmd) := [(.storeCodex, .storeCodex), (.storeFirmware, .storeFirmware), (.clearCodex, .clearCodex)]
    let runs (c : NvsCmd) : State := { s with nvs := { s.nvs with cmd := some c, buf := [] } }
    let posts (r : CmdResult) : State :=
      { s with nvs := { s.nvs with cmd := none, buf := [], result := r, check := 0, rseq := s.nvs.rseq + 1 } }
    let answers (r : CmdResult) : State :=
      { s with nvs := { s.nvs with result := r, check := 0, rseq := s.nvs.rseq + 1 } }
    (s.pwr.powered = false ∨ s.cur.lost = true → ∀ c ∈ cmds, exec c.1 s = .next s) ∧
    (s.pwr.powered = true → s.cur.lost = false →
      (s.frozen = true ∨ s.cur.stage ≠ .ready ∨ s.nvs.cmd.isSome ∨ s.orderRuns = true ∨ s.cur.taking = true →
        ∀ c ∈ cmds, exec c.1 s = .next (answers .busy)) ∧
      (s.nvsBusy = false → s.cur.mode = .plain → ∀ c ∈ cmds, exec c.1 s = .next (answers .refusedState)) ∧
      (s.frozen = false → s.cur.stage = .ready → s.nvs.cmd = none → s.orderRuns = false → s.cur.taking = false →
        s.cur.mode ≠ .plain →
        (2 ^ 25 < s.nvs.srcLen.toNat → exec .storeCodex s = .next (posts .noResource)) ∧
        (s.nvs.srcLen.toNat ≤ 2 ^ 25 → exec .storeCodex s = .next (runs .storeCodex)) ∧
        (2 ^ 22 < s.nvs.srcLen.toNat → exec .storeFirmware s = .next (posts .noResource)) ∧
        (s.nvs.srcLen.toNat ≤ 2 ^ 22 → exec .storeFirmware s = .next (runs .storeFirmware)) ∧
        exec .clearCodex s = .next ((runs .clearCodex).flashStart .clearCodex clearSteps))) ∧
    (s.nvs.jobs = j :: rest → s.nvs.busy = true → s.pwr.powered = true →
      (j.steps = .program off bs :: y :: ys → Yields (exec .flashProgramComplete s) (fun t =>
        t.flash = s.flash.write Memory.erased off bs ∧ (a < off ∨ off + bs.length ≤ a → t.flash.byte Memory.erased a =
          s.flash.byte Memory.erased a))) ∧
      (j.steps = .erase off len :: y :: ys → Yields (exec .flashProgramComplete s) (fun t =>
        t.flash.byte Memory.erased a = if off ≤ a ∧ a < off + len then 0xFF else s.flash.byte Memory.erased a)) ∧
      (j.steps = [.program off bs] → j.kind = .codexStore → ∃ u : State, exec .flashProgramComplete s = .next u.settle ∧
        u.nvs.result = .done ∧ u.nvs.cmd = none ∧ u.nvs.rseq = s.nvs.rseq + 1 ∧
        u.flash = s.flash.write Memory.erased off bs) ∧
      (j.steps = [.program off bs] → j.kind = .checkpoint slot bs → s.led.cpAgain = false → s.led.cpCmd = false →
        ∃ u : State, exec .flashProgramComplete s = .next u.settle ∧ u.led.lastCp = bs ∧ u.led.cpBusy = false ∧
          u.led.checkpoints = satInc s.led.checkpoints ∧ u.led.cpSeq = BitVec.ofNat 64 (fieldAt bs 8 8) + 1)) ∧
    (s.led.started = true → s.tickRuns = true → s.cur.lost = false → s.led.plain = false →
      (s.led.sinceCp = 0 → exec .checkpointTimer s = .next s) ∧
      ((s.clk.tick - s.led.cpTick).toNat < 10000000 → exec .checkpointTimer s = .next s) ∧
      (0 < s.led.sinceCp → 10000000 ≤ (s.clk.tick - s.led.cpTick).toNat →
        (s.led.cpBusy = true → exec .checkpointTimer s = .next { s with led := { s.led with cpAgain := true } }) ∧
        (s.led.cpBusy = false → Yields (exec .checkpointTimer s) (fun t => t.led.cpBusy = true ∧ t.led.sinceCp = 0 ∧
          t.led.cpTick = s.clk.tick ∧ t.led.staged = s.led.staged ∧ t.led.head = s.led.head)))) ∧
    (s.writesDropped = false →
      let n := 2 ^ s.led.drSize.toNat
      let freed := (head.toNat + n - s.led.drHead.toNat % n) % n
      (n ≤ head.toNat ∨ s.led.drainUnfreed < freed → exec (.drainHead head) s =
        .next { s with led := { s.led with evBad := true } }) ∧
      (head.toNat < n → freed ≤ s.led.drainUnfreed → exec (.drainHead head) s = .next ({ s with led := { s.led with
        staged := s.led.staged.drop freed, written := s.led.written - freed, drHead := head } } : State).settle))

/-! ### Registers, the management bus and the test port (chapters 0, 5, 14, 19 and 20) -/

/-- R7, R10, R67, R111, R249, R264, R318, R319, Table 0.4: a host's register accesses. A function whose link is down takes
none; one that is wider than 8 bytes, unaligned or beyond the BAR is Unsupported Request with no effect; a read of a
register closed by a freeze gives all ones, as does one of the MSI-X table before READY, and a write to one is dropped (a
command of the CDX, BAY and NVS blocks is answered); in service a field takes a write by its code (rw, ro, w1c; a command
register runs its command) and a read covers what its rc fields held and clears them. That the MSI-X table is closed as a
BAR0 register is, is deduced (log entry 147). -/
def Obligations.RegistersByAccessCode : Prop :=
  ∀ (s : State) (a : HostAccess) (v : DWord) (x : BitVec 16),
    let blk := (s.regBlock a.fn a.offset).1
    let i := (s.regBlock a.fn a.offset).2 / 8
    let at8 (off : Nat) : HostAccess := { fn := s.ownerFn, bar2 := false, offset := off, size := 8 }
    let reads (off w : Nat) (t : State) : Prop :=
      exec (.rcRead (at8 off)) s = .next { t with reply := .data (leBytes 8 w) }
    let ones : State := { s with reply := .data (List.replicate a.size 0xFF) }
    (s.hostLinked a.fn = false ∨ s.behindWrite a.fn = true →
      exec (.registerWrite a v) s = .next s ∧ exec (.rcRead a) s = .next s) ∧
    (s.hostLinked a.fn = true → s.behindWrite a.fn = false →
      s.barSize a < a.offset + a.size ∨ (accessOk a = false ∧ (a.bar2 = true ∨ blk ≠ .drop)) →
      exec (.registerWrite a v) s = .next { s with reply := .unsupported } ∧
      exec (.rcRead a) s = .next { s with reply := .unsupported }) ∧
    (s.hostLinked a.fn = true → s.frozen = true → a.bar2 = false → accessOk a = true → a.offset + a.size ≤ s.barSize a →
      blk ∈ [RegBlock.pwr, .inv, .cdx, .led, .nvs, .int, .lnk, .port, .bay, .trim, .bkm] →
      ((blk = .cdx → i ≠ 0) → (blk = .bay → i ≠ 1) → (blk = .nvs → i ≠ 2) → exec (.registerWrite a v) s = .next s) ∧
      exec (.rcRead a) s = .next ones) ∧
    (s.hostLinked a.fn = true → s.cur.stage ≠ .ready ∨ s.frozen = true → a.bar2 = true → accessOk a = true →
      a.offset + a.size ≤ s.barSize a → exec (.registerWrite a v) s = .next s ∧ exec (.rcRead a) s = .next ones) ∧
    (s.hostLinked s.ownerFn = true → s.frozen = true →
      reads 0x10020 s.clk.tick.toNat s ∧ reads 0x10028 (s.waferState + 16 * s.clk.freq.toNat) s) ∧
    (s.hostLinked s.ownerFn = true → s.behindWrite s.ownerFn = false →
      exec (.registerWrite (at8 0x40000) 5) s = exec .unload s) ∧
    (s.hostLinked s.ownerFn = true → s.behindWrite s.ownerFn = false → s.writesDropped = false →
      exec (.registerWrite (at8 0x30038) v) s = .next { s with inv := { s.inv with index := v.setWidth 16 } } ∧
      exec (.registerWrite { at8 0x30038 with size := 2 } (x.setWidth 64)) s =
        .next { s with inv := { s.inv with index := x } } ∧
      exec (.registerWrite (at8 0x30008) v) s = .next s ∧
      exec (.registerWrite (at8 0x30030) v) s = .next { s with inv := { s.inv with
        evNew := s.inv.evNew && !v.getLsbD 0, evFull := s.inv.evFull && !v.getLsbD 1,
        evChanged := s.inv.evChanged && !v.getLsbD 2 } } ∧
      reads 0x30008 s.imprint.serial.toNat s ∧ reads 0x40000 0 s ∧
      reads 0x10058 (s.clk.failovers.toNat + 2 ^ 16 * s.clk.deadFreezes.toNat + 2 ^ 32 * s.clk.dimWakes.toNat)
        { s with clk := { s.clk with failovers := 0, deadFreezes := 0, dimWakes := 0 } })

/-- R447, R448, R450 to R452, Tables 19.9 and 20.1: the management bus answers each Block Read with its bytes where it has a clock, and
nothing where it has none; CLEAR_WARN clears the bits that are 1, and a read of the Alert Response Address gives 0x4A and
lets SMBALERT# go. The test port selects the register of its instruction; EXTEST and HIGHZ take the ring, freeze the
wafer and drop every host link and peer link, and every other instruction gives the ring back. -/
def Obligations.ManagementBusAndTestPort : Prop :=
  ∀ (s : State) (data : Byte),
    let answers (c : Instr) (bs : List Byte) : Prop :=
      exec c s = .next { s with mgmt := { s.mgmt with reply := bs, acked := true } }
    let selects (cells : Boundary) (code : Byte) (reg : TapReg) (shift : Word) : State :=
      { s with jtag := { s.jtag with cells := cells, instr := code, reg := reg, shift := shift } }
    let own := s.jtag.cells
    (s.mgmtClocked = true →
      answers .ident (leBytes 8 s.imprint.serial.toNat ++ [0xB0, if s.imprint.b2 then 1 else 0, 0x01, 0]) ∧
      answers .status (leBytes 1 s.waferState ++ leBytes 1 s.cur.stage.code ++ leBytes 1 s.cur.cause.code ++
        [s.pwr.asserted.setWidth 8 ||| (s.pwr.latched.setWidth 8 <<< 4), s.mgmt.warn] ++ leBytes 1 s.mgmt.result.code ++
        [s.mgmt.seq, 0]) ∧
      answers .thermal (leBytes 2 (BitVec.ofInt 16 s.mgmt.inlet).toNat ++ leBytes 2 (BitVec.ofInt 16 s.mgmt.outlet).toNat ++
        leBytes 2 s.mgmt.flow ++ leBytes 1 s.hottest.1 ++ leBytes 1 s.hottest.2.val) ∧
      answers .power (leBytes 2 (s.pwr.inputMv / 10) ++ leBytes 2 s.pwr.inputDa ++ leBytes 2 (s.pwr.now.toNat / 10) ++ [0, 0]) ∧
      exec (.clearWarn data true) s = .next { s with mgmt := { s.mgmt with
        warn := s.mgmt.warn &&& ~~~data, unacked := s.mgmt.unacked &&& ~~~data, result := .done, seq := s.mgmt.seq + 1,
        acked := true } } ∧
      exec .alertResponseAddress s =
        .next { s with mgmt := { s.mgmt with reply := [0x4A], acked := true, unacked := 0 } }) ∧
    (∀ c ∈ [Instr.clearWarn data false] ++
        (if s.mgmtClocked then [] else [.ident, .status, .thermal, .power, .clearWarn data true, .alertResponseAddress]),
      exec c s = .next { s with mgmt := { s.mgmt with acked := false } }) ∧
    (s.pwr.powered = true →
      (s.jtag.holds = false → exec .idcode s = .next (selects own 0x01 .idcode 0x1A5C13F3) ∧
        exec .bypass s = .next (selects own 0xFF .bypass 0) ∧
        exec .testLogicReset s = .next (selects own 0x01 .idcode 0x1A5C13F3) ∧
        exec .samplePreload s = .next (selects s.pins 0x02 .boundary s.jtag.shift)) ∧
      (s.jtag.holds = true → exec .extest s = .next (selects own 0x00 .boundary s.jtag.shift) ∧
        exec .highz s = .next (selects own 0x03 .bypass 0)) ∧
      (s.jtag.holds = false → s.cur.stage = .ready → s.cur.wait = .none → s.act = .none →
        ∀ c ∈ [Instr.extest, .highz], Yields (exec c s) (fun t => t.jtag.holds = true ∧ t.act = .alert ∧
          (∀ p, (t.port p).linkUp = false) ∧ ∀ l, (s.link l).inService = true → (t.link l).state = .failed)) ∧
      (s.jtag.holds = true → s.act = .alert → s.pwr.asserted = 0 → s.cur.stage = .ready → s.cur.wait = .none →
        ∀ c ∈ [Instr.idcode, .bypass, .testLogicReset, .samplePreload], ∃ u : State, exec c s = .next (u.beginResume true) ∧
          u.jtag.holds = false ∧ u.pwr.clearSince = none ∧ u.clk = s.clk ∧ u.cur = s.cur))

/-! ### Every step -/

/-- Log entry 1, the model's choice: every command has a next state, in every state, whatever its operands. Log entry 2, the
model's choice: with no command waiting, a step is one reference tick (R68, R74): CLK.TICK counts while the active
reference runs, external time goes on, and, where no relock awaits its frame edge and no trim step its carrels, the idle count
of a folio that is not busy rises. -/
def Obligations.EveryStepAnswers : Prop :=
  ∀ s : State, Completes (step s) ∧
    (s.pending = [] → s.clk.lockWait = false → (∀ e ∈ s.folios, e.2.trimWait = false) → Yields (step s) (fun t =>
      t.ext = s.ext + 1 ∧ t.pending = [] ∧
      t.clk = { s.clk with tick := if s.tickRuns then s.clk.tick + 1 else s.clk.tick } ∧
      (s.fabricRuns = false → t.folios = s.folios) ∧
      ∀ f, s.fabricRuns = true → (s.folio f).clock = .warm ∨ (s.folio f).clock = .dim →
        (t.folio f).idle = if s.folioBusy f then 0 else (s.folio f).idle + 1))

/-- R404, R406, R411: no command writes the fuses of the imprint, lets external time go on or touches the queue; and only
FLASH_PROGRAM_COMPLETE, and a takeover that lets the operation in progress finish, change the flash. -/
def Obligations.CommandsLeaveFusesTimeAndFlash : Prop :=
  ∀ (c : Instr) (s t : State), exec c s = .next t →
    t.imprint = s.imprint ∧ t.ext = s.ext ∧ t.pending = s.pending ∧
    (c ≠ .flashProgramComplete → c ≠ .heartbeatTimeout → t.flash = s.flash)

/-- The memories of the address spaces stay in their canonical form, in every state and under every command and tick: the
archive, the flash, and the SRAM, stacks, matrix tile and SAVE image of every carrel. -/
def Obligations.EveryStepKeepsMemoriesCanonical : Prop :=
  ∀ s t : State, s.MemoriesCanonical → step s = .next t → t.MemoriesCanonical

/-- R433, R451 and the Reset columns of Tables 4.6, 4.8, 14.15, 14.16 and 20.1: the binding before power holds what the spec
states (its limits at the imprint's values), and the memories of the address spaces are in canonical form. -/
def Obligations.ResetState : Prop :=
  let s := State.reset
  s.MemoriesCanonical ∧ s.pending = [] ∧ s.pwr.powered = false ∧ s.clk.tick = 0 ∧ s.cdx.codex = none ∧ s.cands = [] ∧
    s.pwr.cap = 2200 ∧ s.pwr.capWindow = 10 ∧ s.pwr.ceiling = 16 ∧ s.pwr.folioA = 330 ∧ s.pwr.stacksA = 400 ∧
    s.pwr.railWindow = 8 ∧ s.pwr.asserted = 0 ∧ s.pwr.latched = 0 ∧ s.portRegs.hold = 2000 ∧
    (∀ f, (s.folio f).railFrac = 16 ∧ (s.folio f).setpoint = 800) ∧
    (∀ p, (s.port p).perst = true ∧ (s.port p).linkUp = false ∧ (s.port p).vfEnable = false) ∧
    (∀ r, (s.reader r).window = 0 ∧ (s.reader r).reqEn = false ∧ (s.reader r).verEn = false ∧ (s.reader r).holdoff = 0 ∧
      (s.reader r).verRing.phase = true ∧ (s.reader r).notRing.phase = true ∧ ∀ v, ((s.reader r).vectors.get v).masked = true) ∧
    s.jtag.instr = 0x01 ∧ s.jtag.shift = 0x1A5C13F3
end

