-- ==== Sys2Proof/Laws/Tbl.lean ====
section
/-! SUPPORT. Laws/Tbl.lean: reading after writing a table or a memory, and that every operation keeps the canonical
form. -/

namespace Sys2Proof

theorem Tbl.get_erase {α : Type} (d : α) (t : Tbl α) (k j : Nat) :
    Tbl.get d (Tbl.erase t k) j = if j = k then d else Tbl.get d t j := by
  induction t with
  | nil => simp [Tbl.erase, Tbl.get]
  | cons e r ih =>
    obtain ⟨i, v⟩ := e
    by_cases h : i = k
    · subst h
      simp only [Tbl.erase, if_true, ih, Tbl.get]
      by_cases hj : j = i
      · simp [hj]
      · simp [hj, Ne.symm hj]
    · simp only [Tbl.erase, if_neg h, Tbl.get, ih]
      by_cases hi : i = j
      · subst hi; simp [h]
      · simp [hi]

theorem Tbl.get_insert {α : Type} (d : α) (t : Tbl α) (k j : Nat) (v : α) :
    Tbl.get d (Tbl.insert t k v) j = if j = k then v else Tbl.get d t j := by
  induction t with
  | nil =>
    by_cases h : j = k
    · simp [Tbl.insert, Tbl.get, h]
    · simp [Tbl.insert, Tbl.get, h, Ne.symm h]
  | cons e r ih =>
    obtain ⟨i, w⟩ := e
    simp only [Tbl.insert]
    split
    · by_cases h : j = k
      · simp [Tbl.get, h]
      · simp [Tbl.get, h, Ne.symm h]
    · split
      · rename_i h; subst h
        by_cases h : j = k
        · simp [Tbl.get, h]
        · simp [Tbl.get, h, Ne.symm h]
      · rename_i h1 h2
        simp only [Tbl.get, ih]
        by_cases hi : i = j
        · subst hi; simp [Ne.symm h2]
        · simp [hi]

variable {α : Type} [DecidableEq α]

/-- Reading after a write: the value at the key written, every other key as it was. -/
theorem Tbl.get_set (d : α) (t : Tbl α) (k j : Nat) (v : α) :
    Tbl.get d (Tbl.set d t k v) j = if j = k then v else Tbl.get d t j := by
  unfold Tbl.set
  split
  · rename_i h; subst h; exact Tbl.get_erase v t k j
  · exact Tbl.get_insert d t k j v

@[simp] theorem Tbl.get_set_same (d : α) (t : Tbl α) (k : Nat) (v : α) : Tbl.get d (Tbl.set d t k v) k = v := by
  simp [Tbl.get_set]

theorem Tbl.get_set_other (d : α) (t : Tbl α) {k j : Nat} (h : j ≠ k) (v : α) :
    Tbl.get d (Tbl.set d t k v) j = Tbl.get d t j := by
  simp [Tbl.get_set, h]

/-! ### The canonical form -/

/-- A lower bound may be weakened. -/
theorem Tbl.wfFrom_weaken (d : α) {lo : Nat} {t : Tbl α} (h : Tbl.wfFrom d (some lo) t = true) (lo' : Option Nat)
    (hl : ∀ l, lo' = some l → l ≤ lo) : Tbl.wfFrom d lo' t = true := by
  cases t with
  | nil => rfl
  | cons e r =>
    obtain ⟨j, v⟩ := e
    simp only [Tbl.wfFrom, Bool.and_eq_true, decide_eq_true_eq] at h ⊢
    refine ⟨⟨?_, h.1.2⟩, h.2⟩
    cases lo' with
    | none => rfl
    | some l => have := hl l rfl; simp; omega

/-- The head and the tail of a table in the canonical form. -/
theorem Tbl.wfFrom_cons (d : α) (lo : Option Nat) (j : Nat) (v : α) (r : Tbl α) :
    Tbl.wfFrom d lo ((j, v) :: r) = true ↔
      (∀ l, lo = some l → l < j) ∧ v ≠ d ∧ Tbl.wfFrom d (some j) r = true := by
  cases lo <;> simp [Tbl.wfFrom, and_assoc]

theorem Tbl.wfFrom_erase (d : α) (k : Nat) : (t : Tbl α) → (lo : Option Nat) → Tbl.wfFrom d lo t = true →
    Tbl.wfFrom d lo (Tbl.erase t k) = true
  | [], _, _ => rfl
  | (j, v) :: r, lo, h => by
    rw [Tbl.wfFrom_cons] at h
    simp only [Tbl.erase]
    split
    · exact Tbl.wfFrom_weaken d (Tbl.wfFrom_erase d k r (some j) h.2.2) lo (fun l hl => Nat.le_of_lt (h.1 l hl))
    · rw [Tbl.wfFrom_cons]
      exact ⟨h.1, h.2.1, Tbl.wfFrom_erase d k r (some j) h.2.2⟩

theorem Tbl.wfFrom_insert (d : α) (k : Nat) (v : α) (hv : v ≠ d) : (t : Tbl α) → (lo : Option Nat) →
    Tbl.wfFrom d lo t = true → (∀ l, lo = some l → l < k) → Tbl.wfFrom d lo (Tbl.insert t k v) = true
  | [], lo, _, hk => by simp only [Tbl.insert]; rw [Tbl.wfFrom_cons]; exact ⟨hk, hv, rfl⟩
  | (j, w) :: r, lo, h, hk => by
    rw [Tbl.wfFrom_cons] at h
    simp only [Tbl.insert]
    split
    · rename_i hlt
      rw [Tbl.wfFrom_cons, Tbl.wfFrom_cons]
      refine ⟨hk, hv, ?_, h.2.1, h.2.2⟩
      intro l hl; cases hl; exact hlt
    · split
      · rename_i heq; subst heq
        rw [Tbl.wfFrom_cons]; exact ⟨hk, hv, h.2.2⟩
      · rename_i h1 h2
        rw [Tbl.wfFrom_cons]
        refine ⟨h.1, h.2.1, Tbl.wfFrom_insert d k v hv r (some j) h.2.2 ?_⟩
        intro l hl; cases hl; omega

/-- A write keeps the canonical form. -/
theorem Tbl.wf_set (d : α) (t : Tbl α) (k : Nat) (v : α) (h : Tbl.wf d t = true) : Tbl.wf d (Tbl.set d t k v) = true := by
  unfold Tbl.set Tbl.wf
  split
  · exact Tbl.wfFrom_erase d k t none h
  · rename_i hv; exact Tbl.wfFrom_insert d k v hv t none h (fun _ hl => by cases hl)

theorem Tbl.wfFrom_filter (d : α) (p : Nat × α → Bool) : (t : Tbl α) → (lo : Option Nat) →
    Tbl.wfFrom d lo t = true → Tbl.wfFrom d lo (t.filter p) = true
  | [], _, _ => rfl
  | (j, v) :: r, lo, h => by
    rw [Tbl.wfFrom_cons] at h
    by_cases hp : p (j, v) = true
    · rw [List.filter_cons_of_pos hp, Tbl.wfFrom_cons]
      exact ⟨h.1, h.2.1, Tbl.wfFrom_filter d p r (some j) h.2.2⟩
    · rw [List.filter_cons_of_neg hp]
      exact Tbl.wfFrom_weaken d (Tbl.wfFrom_filter d p r (some j) h.2.2) lo (fun l hl => Nat.le_of_lt (h.1 l hl))

/-- Taking entries out keeps the canonical form. -/
theorem Tbl.wf_filter (d : α) (p : Nat × α → Bool) (t : Tbl α) (h : Tbl.wf d t = true) : Tbl.wf d (t.filter p) = true :=
  Tbl.wfFrom_filter d p t none h

/-! ### The canonical form as an order -/

/-- The canonical form from a lower bound: every key above it, keys strictly rising, no default listed. -/
theorem Tbl.wfFrom_iff (d : α) : (t : Tbl α) → (lo : Option Nat) →
    (Tbl.wfFrom d lo t = true ↔ (∀ l, lo = some l → ∀ e ∈ t, l < e.1) ∧
      t.Pairwise (fun x y => x.1 < y.1) ∧ ∀ e ∈ t, e.2 ≠ d)
  | [], _ => by simp [Tbl.wfFrom]
  | (j, v) :: r, lo => by
    rw [Tbl.wfFrom_cons, Tbl.wfFrom_iff d r (some j)]
    simp only [List.pairwise_cons, List.forall_mem_cons, Option.some.injEq, forall_eq']
    constructor
    · rintro ⟨h1, h2, h3, h4, h5⟩
      exact ⟨fun l hl => ⟨h1 l hl, fun e he => Nat.lt_trans (h1 l hl) (h3 e he)⟩, ⟨h3, h4⟩, h2, h5⟩
    · rintro ⟨h1, ⟨h3, h4⟩, h2, h5⟩
      exact ⟨fun l hl => (h1 l hl).1, h2, h3, h4, h5⟩

/-- The canonical form: keys strictly rising, no default listed. -/
theorem Tbl.wf_iff (d : α) (t : Tbl α) :
    Tbl.wf d t = true ↔ t.Pairwise (fun x y => x.1 < y.1) ∧ ∀ e ∈ t, e.2 ≠ d := by
  unfold Tbl.wf; rw [Tbl.wfFrom_iff]; simp

/-! ### Memory -/

theorem Memory.byte_put (d : Byte) (m : Memory) (a x : Nat) (b : Byte) :
    Memory.byte d (Memory.put d m a b) x = if x = a then b else Memory.byte d m x := Tbl.get_set d m a x b

/-- Every byte after a write: those written, and the others as they were. -/
theorem Memory.byte_write (d : Byte) (bs : List Byte) : (m : Memory) → (a x : Nat) →
    Memory.byte d (Memory.write d m a bs) x =
      if a ≤ x ∧ x < a + bs.length then bs.getD (x - a) 0 else Memory.byte d m x := by
  induction bs with
  | nil =>
    intro m a x
    have : ¬(a ≤ x ∧ x < a + ([] : List Byte).length) := by simp
    rw [if_neg this]; rfl
  | cons b r ih =>
    intro m a x
    simp only [Memory.write, ih, Memory.byte_put]
    by_cases h1 : x = a
    · subst h1
      have h2 : ¬(x + 1 ≤ x ∧ x < x + 1 + r.length) := by omega
      have h3 : x ≤ x ∧ x < x + (b :: r).length := by simp
      rw [if_neg h2, if_pos rfl, if_pos h3]; simp
    · by_cases h2 : a + 1 ≤ x ∧ x < a + 1 + r.length
      · have h3 : a ≤ x ∧ x < a + (b :: r).length := by simp only [List.length_cons]; omega
        rw [if_pos h2, if_pos h3]
        have : x - a = (x - (a + 1)) + 1 := by omega
        rw [this, List.getD_cons_succ]
      · have h3 : ¬(a ≤ x ∧ x < a + (b :: r).length) := by simp only [List.length_cons]; omega
        rw [if_neg h2, if_neg h3, if_neg h1]

theorem Memory.byte_write_outside (d : Byte) (m : Memory) (a : Nat) (bs : List Byte) {x : Nat}
    (h : x < a ∨ a + bs.length ≤ x) : Memory.byte d (Memory.write d m a bs) x = Memory.byte d m x := by
  rw [Memory.byte_write, if_neg (by omega)]

@[simp] theorem Memory.length_read (d : Byte) (m : Memory) (a n : Nat) : (Memory.read d m a n).length = n := by
  simp [Memory.read]

theorem Memory.getD_read (d : Byte) (m : Memory) (a n i : Nat) (h : i < n) :
    (Memory.read d m a n).getD i 0 = Memory.byte d m (a + i) := by
  simp [Memory.read, List.getD, h]

/-- A read outside the bytes written gives what it gave before. -/
theorem Memory.read_write_outside (d : Byte) (m : Memory) (a x n : Nat) (bs : List Byte)
    (h : x + n ≤ a ∨ a + bs.length ≤ x) : Memory.read d (Memory.write d m a bs) x n = Memory.read d m x n := by
  unfold Memory.read
  apply List.map_congr_left
  intro i hi
  have hi := List.mem_range.mp hi
  exact Memory.byte_write_outside d m a bs (by omega)

/-- A read of the bytes written gives them. -/
theorem Memory.read_write_same (d : Byte) (m : Memory) (a : Nat) (bs : List Byte) :
    Memory.read d (Memory.write d m a bs) a bs.length = bs := by
  apply List.ext_getElem
  · simp
  · intro i h1 h2
    simp only [Memory.read, List.getElem_map, List.getElem_range]
    rw [Memory.byte_write, if_pos (by omega)]
    simp [List.getD, h2]

/-- A write keeps the canonical form. -/
theorem Memory.wf_put (d : Byte) (m : Memory) (a : Nat) (b : Byte) (h : Memory.wf d m = true) :
    Memory.wf d (Memory.put d m a b) = true := Tbl.wf_set d m a b h

theorem Memory.wf_write (d : Byte) (bs : List Byte) : (m : Memory) → (a : Nat) → Memory.wf d m = true →
    Memory.wf d (Memory.write d m a bs) = true := by
  induction bs with
  | nil => intro m a h; exact h
  | cons b r ih => intro m a h; exact ih _ _ (Memory.wf_put d m a b h)

theorem Memory.wf_clear (d : Byte) (m : Memory) (a n : Nat) (h : Memory.wf d m = true) :
    Memory.wf d (Memory.clear m a n) = true := Tbl.wf_filter d _ m h

@[simp] theorem Memory.wf_nil (d : Byte) : Memory.wf d [] = true := rfl

/-- Bytes laid out from 0 are in the canonical form. -/
theorem Memory.wf_ofBytes (d : Byte) (bs : List Byte) : Memory.wf d (Memory.ofBytes d bs) = true := by
  refine (Tbl.wf_iff d _).mpr ⟨List.Pairwise.filter _ ?_, ?_⟩
  · have h : (((List.range bs.length).zip bs).map Prod.fst).Pairwise (· < ·) := by
      rw [List.map_fst_zip (by simp)]; exact List.pairwise_lt_range
    exact List.pairwise_map.mp h
  · intro e he
    have h := (List.mem_filter.mp he).2
    simpa using h

/-- A part of a memory, moved down to 0, is in the canonical form. -/
theorem Memory.wf_slice (d : Byte) (m : Memory) (a n : Nat) (h : Memory.wf d m = true) :
    Memory.wf d (Memory.slice m a n) = true := by
  obtain ⟨h1, h2⟩ := (Tbl.wf_iff d m).mp h
  refine (Tbl.wf_iff d _).mpr ⟨?_, ?_⟩
  · refine List.pairwise_map.mpr (List.Pairwise.imp_of_mem ?_ (List.Pairwise.filter _ h1))
    intro x y hx _ hxy
    have hx := (List.mem_filter.mp hx).2
    simp only [inSpan, decide_eq_true_eq] at hx
    show x.1 - a < y.1 - a
    omega
  · intro e he
    obtain ⟨c, hc, rfl⟩ := List.mem_map.mp he
    exact h2 c (List.mem_filter.mp hc).1

/-- Replacing a part of a memory by another memory's first bytes keeps the canonical form. -/
theorem Memory.wf_paste (d : Byte) (m src : Memory) (a n : Nat) (h : Memory.wf d m = true) (hs : Memory.wf d src = true) :
    Memory.wf d (Memory.paste m a n src) = true := by
  obtain ⟨h1, h2⟩ := (Tbl.wf_iff d m).mp h
  obtain ⟨s1, s2⟩ := (Tbl.wf_iff d src).mp hs
  refine (Tbl.wf_iff d _).mpr ⟨?_, ?_⟩
  · refine List.pairwise_append.mpr ⟨List.pairwise_append.mpr ⟨List.Pairwise.filter _ h1, ?_, ?_⟩, List.Pairwise.filter _ h1, ?_⟩
    · refine List.pairwise_map.mpr (List.Pairwise.imp ?_ (List.Pairwise.filter _ s1))
      intro x y hxy
      show x.1 + a < y.1 + a
      omega
    · intro x hx y hy
      obtain ⟨c, -, rfl⟩ := List.mem_map.mp hy
      have := of_decide_eq_true (List.mem_filter.mp hx).2
      show x.1 < c.1 + a
      omega
    · intro x hx y hy
      have hy := of_decide_eq_true (List.mem_filter.mp hy).2
      rcases List.mem_append.mp hx with hx | hx
      · have := of_decide_eq_true (List.mem_filter.mp hx).2; omega
      · obtain ⟨c, hc, rfl⟩ := List.mem_map.mp hx
        have := of_decide_eq_true (List.mem_filter.mp hc).2
        show c.1 + a < y.1
        omega
  · intro e he
    rcases List.mem_append.mp he with he | he
    · rcases List.mem_append.mp he with he | he
      · exact h2 e (List.mem_filter.mp he).1
      · obtain ⟨c, hc, rfl⟩ := List.mem_map.mp he
        exact s2 c (List.mem_filter.mp hc).1
    · exact h2 e (List.mem_filter.mp he).1

end Sys2Proof
end

