-- ==== Sys2Proof/Laws/State.lean ====
section
/-! SUPPORT. Laws/State.lean: what each named update of the state changes: one lemma for each field it leaves alone,
and one for reading the table it writes. -/

namespace Sys2Proof.Machine

variable (s : State)

/-! ### State.modFolio -/

@[simp] theorem State.modFolio_clk (f : FolioId) (g : Folio → Folio) : (s.modFolio f g).clk = s.clk := rfl
@[simp] theorem State.modFolio_pwr (f : FolioId) (g : Folio → Folio) : (s.modFolio f g).pwr = s.pwr := rfl
@[simp] theorem State.modFolio_cur (f : FolioId) (g : Folio → Folio) : (s.modFolio f g).cur = s.cur := rfl
@[simp] theorem State.modFolio_act (f : FolioId) (g : Folio → Folio) : (s.modFolio f g).act = s.act := rfl
@[simp] theorem State.modFolio_inv (f : FolioId) (g : Folio → Folio) : (s.modFolio f g).inv = s.inv := rfl
@[simp] theorem State.modFolio_int (f : FolioId) (g : Folio → Folio) : (s.modFolio f g).int = s.int := rfl
@[simp] theorem State.modFolio_cdx (f : FolioId) (g : Folio → Folio) : (s.modFolio f g).cdx = s.cdx := rfl
@[simp] theorem State.modFolio_bayRegs (f : FolioId) (g : Folio → Folio) : (s.modFolio f g).bayRegs = s.bayRegs := rfl
@[simp] theorem State.modFolio_led (f : FolioId) (g : Folio → Folio) : (s.modFolio f g).led = s.led := rfl
@[simp] theorem State.modFolio_nvs (f : FolioId) (g : Folio → Folio) : (s.modFolio f g).nvs = s.nvs := rfl
@[simp] theorem State.modFolio_mbx (f : FolioId) (g : Folio → Folio) : (s.modFolio f g).mbx = s.mbx := rfl
@[simp] theorem State.modFolio_lnk (f : FolioId) (g : Folio → Folio) : (s.modFolio f g).lnk = s.lnk := rfl
@[simp] theorem State.modFolio_portRegs (f : FolioId) (g : Folio → Folio) : (s.modFolio f g).portRegs = s.portRegs := rfl
@[simp] theorem State.modFolio_mgmt (f : FolioId) (g : Folio → Folio) : (s.modFolio f g).mgmt = s.mgmt := rfl
@[simp] theorem State.modFolio_jtag (f : FolioId) (g : Folio → Folio) : (s.modFolio f g).jtag = s.jtag := rfl
@[simp] theorem State.modFolio_imprint (f : FolioId) (g : Folio → Folio) : (s.modFolio f g).imprint = s.imprint := rfl
@[simp] theorem State.modFolio_ports (f : FolioId) (g : Folio → Folio) : (s.modFolio f g).ports = s.ports := rfl
@[simp] theorem State.modFolio_links (f : FolioId) (g : Folio → Folio) : (s.modFolio f g).links = s.links := rfl
@[simp] theorem State.modFolio_carrels (f : FolioId) (g : Folio → Folio) : (s.modFolio f g).carrels = s.carrels := rfl
@[simp] theorem State.modFolio_routers (f : FolioId) (g : Folio → Folio) : (s.modFolio f g).routers = s.routers := rfl
@[simp] theorem State.modFolio_bays (f : FolioId) (g : Folio → Folio) : (s.modFolio f g).bays = s.bays := rfl
@[simp] theorem State.modFolio_readers (f : FolioId) (g : Folio → Folio) : (s.modFolio f g).readers = s.readers := rfl
@[simp] theorem State.modFolio_homes (f : FolioId) (g : Folio → Folio) : (s.modFolio f g).homes = s.homes := rfl
@[simp] theorem State.modFolio_net (f : FolioId) (g : Folio → Folio) : (s.modFolio f g).net = s.net := rfl
@[simp] theorem State.modFolio_syncs (f : FolioId) (g : Folio → Folio) : (s.modFolio f g).syncs = s.syncs := rfl
@[simp] theorem State.modFolio_cands (f : FolioId) (g : Folio → Folio) : (s.modFolio f g).cands = s.cands := rfl
@[simp] theorem State.modFolio_waits (f : FolioId) (g : Folio → Folio) : (s.modFolio f g).waits = s.waits := rfl
@[simp] theorem State.modFolio_archive (f : FolioId) (g : Folio → Folio) : (s.modFolio f g).archive = s.archive := rfl
@[simp] theorem State.modFolio_flash (f : FolioId) (g : Folio → Folio) : (s.modFolio f g).flash = s.flash := rfl
@[simp] theorem State.modFolio_posted (f : FolioId) (g : Folio → Folio) : (s.modFolio f g).posted = s.posted := rfl
@[simp] theorem State.modFolio_reply (f : FolioId) (g : Folio → Folio) : (s.modFolio f g).reply = s.reply := rfl
@[simp] theorem State.modFolio_ext (f : FolioId) (g : Folio → Folio) : (s.modFolio f g).ext = s.ext := rfl
@[simp] theorem State.modFolio_arrivals (f : FolioId) (g : Folio → Folio) : (s.modFolio f g).arrivals = s.arrivals := rfl
@[simp] theorem State.modFolio_free (f : FolioId) (g : Folio → Folio) : (s.modFolio f g).free = s.free := rfl
@[simp] theorem State.modFolio_pending (f : FolioId) (g : Folio → Folio) : (s.modFolio f g).pending = s.pending := rfl

/-! ### State.modPort -/

@[simp] theorem State.modPort_clk (p : PortId) (g : Port → Port) : (s.modPort p g).clk = s.clk := rfl
@[simp] theorem State.modPort_pwr (p : PortId) (g : Port → Port) : (s.modPort p g).pwr = s.pwr := rfl
@[simp] theorem State.modPort_cur (p : PortId) (g : Port → Port) : (s.modPort p g).cur = s.cur := rfl
@[simp] theorem State.modPort_act (p : PortId) (g : Port → Port) : (s.modPort p g).act = s.act := rfl
@[simp] theorem State.modPort_inv (p : PortId) (g : Port → Port) : (s.modPort p g).inv = s.inv := rfl
@[simp] theorem State.modPort_int (p : PortId) (g : Port → Port) : (s.modPort p g).int = s.int := rfl
@[simp] theorem State.modPort_cdx (p : PortId) (g : Port → Port) : (s.modPort p g).cdx = s.cdx := rfl
@[simp] theorem State.modPort_bayRegs (p : PortId) (g : Port → Port) : (s.modPort p g).bayRegs = s.bayRegs := rfl
@[simp] theorem State.modPort_led (p : PortId) (g : Port → Port) : (s.modPort p g).led = s.led := rfl
@[simp] theorem State.modPort_nvs (p : PortId) (g : Port → Port) : (s.modPort p g).nvs = s.nvs := rfl
@[simp] theorem State.modPort_mbx (p : PortId) (g : Port → Port) : (s.modPort p g).mbx = s.mbx := rfl
@[simp] theorem State.modPort_lnk (p : PortId) (g : Port → Port) : (s.modPort p g).lnk = s.lnk := rfl
@[simp] theorem State.modPort_portRegs (p : PortId) (g : Port → Port) : (s.modPort p g).portRegs = s.portRegs := rfl
@[simp] theorem State.modPort_mgmt (p : PortId) (g : Port → Port) : (s.modPort p g).mgmt = s.mgmt := rfl
@[simp] theorem State.modPort_jtag (p : PortId) (g : Port → Port) : (s.modPort p g).jtag = s.jtag := rfl
@[simp] theorem State.modPort_imprint (p : PortId) (g : Port → Port) : (s.modPort p g).imprint = s.imprint := rfl
@[simp] theorem State.modPort_folios (p : PortId) (g : Port → Port) : (s.modPort p g).folios = s.folios := rfl
@[simp] theorem State.modPort_links (p : PortId) (g : Port → Port) : (s.modPort p g).links = s.links := rfl
@[simp] theorem State.modPort_carrels (p : PortId) (g : Port → Port) : (s.modPort p g).carrels = s.carrels := rfl
@[simp] theorem State.modPort_routers (p : PortId) (g : Port → Port) : (s.modPort p g).routers = s.routers := rfl
@[simp] theorem State.modPort_bays (p : PortId) (g : Port → Port) : (s.modPort p g).bays = s.bays := rfl
@[simp] theorem State.modPort_readers (p : PortId) (g : Port → Port) : (s.modPort p g).readers = s.readers := rfl
@[simp] theorem State.modPort_homes (p : PortId) (g : Port → Port) : (s.modPort p g).homes = s.homes := rfl
@[simp] theorem State.modPort_net (p : PortId) (g : Port → Port) : (s.modPort p g).net = s.net := rfl
@[simp] theorem State.modPort_syncs (p : PortId) (g : Port → Port) : (s.modPort p g).syncs = s.syncs := rfl
@[simp] theorem State.modPort_cands (p : PortId) (g : Port → Port) : (s.modPort p g).cands = s.cands := rfl
@[simp] theorem State.modPort_waits (p : PortId) (g : Port → Port) : (s.modPort p g).waits = s.waits := rfl
@[simp] theorem State.modPort_archive (p : PortId) (g : Port → Port) : (s.modPort p g).archive = s.archive := rfl
@[simp] theorem State.modPort_flash (p : PortId) (g : Port → Port) : (s.modPort p g).flash = s.flash := rfl
@[simp] theorem State.modPort_posted (p : PortId) (g : Port → Port) : (s.modPort p g).posted = s.posted := rfl
@[simp] theorem State.modPort_reply (p : PortId) (g : Port → Port) : (s.modPort p g).reply = s.reply := rfl
@[simp] theorem State.modPort_ext (p : PortId) (g : Port → Port) : (s.modPort p g).ext = s.ext := rfl
@[simp] theorem State.modPort_arrivals (p : PortId) (g : Port → Port) : (s.modPort p g).arrivals = s.arrivals := rfl
@[simp] theorem State.modPort_free (p : PortId) (g : Port → Port) : (s.modPort p g).free = s.free := rfl
@[simp] theorem State.modPort_pending (p : PortId) (g : Port → Port) : (s.modPort p g).pending = s.pending := rfl

/-! ### State.modLink -/

@[simp] theorem State.modLink_clk (l : LinkId) (g : Link → Link) : (s.modLink l g).clk = s.clk := rfl
@[simp] theorem State.modLink_pwr (l : LinkId) (g : Link → Link) : (s.modLink l g).pwr = s.pwr := rfl
@[simp] theorem State.modLink_cur (l : LinkId) (g : Link → Link) : (s.modLink l g).cur = s.cur := rfl
@[simp] theorem State.modLink_act (l : LinkId) (g : Link → Link) : (s.modLink l g).act = s.act := rfl
@[simp] theorem State.modLink_inv (l : LinkId) (g : Link → Link) : (s.modLink l g).inv = s.inv := rfl
@[simp] theorem State.modLink_int (l : LinkId) (g : Link → Link) : (s.modLink l g).int = s.int := rfl
@[simp] theorem State.modLink_cdx (l : LinkId) (g : Link → Link) : (s.modLink l g).cdx = s.cdx := rfl
@[simp] theorem State.modLink_bayRegs (l : LinkId) (g : Link → Link) : (s.modLink l g).bayRegs = s.bayRegs := rfl
@[simp] theorem State.modLink_led (l : LinkId) (g : Link → Link) : (s.modLink l g).led = s.led := rfl
@[simp] theorem State.modLink_nvs (l : LinkId) (g : Link → Link) : (s.modLink l g).nvs = s.nvs := rfl
@[simp] theorem State.modLink_mbx (l : LinkId) (g : Link → Link) : (s.modLink l g).mbx = s.mbx := rfl
@[simp] theorem State.modLink_lnk (l : LinkId) (g : Link → Link) : (s.modLink l g).lnk = s.lnk := rfl
@[simp] theorem State.modLink_portRegs (l : LinkId) (g : Link → Link) : (s.modLink l g).portRegs = s.portRegs := rfl
@[simp] theorem State.modLink_mgmt (l : LinkId) (g : Link → Link) : (s.modLink l g).mgmt = s.mgmt := rfl
@[simp] theorem State.modLink_jtag (l : LinkId) (g : Link → Link) : (s.modLink l g).jtag = s.jtag := rfl
@[simp] theorem State.modLink_imprint (l : LinkId) (g : Link → Link) : (s.modLink l g).imprint = s.imprint := rfl
@[simp] theorem State.modLink_folios (l : LinkId) (g : Link → Link) : (s.modLink l g).folios = s.folios := rfl
@[simp] theorem State.modLink_ports (l : LinkId) (g : Link → Link) : (s.modLink l g).ports = s.ports := rfl
@[simp] theorem State.modLink_carrels (l : LinkId) (g : Link → Link) : (s.modLink l g).carrels = s.carrels := rfl
@[simp] theorem State.modLink_routers (l : LinkId) (g : Link → Link) : (s.modLink l g).routers = s.routers := rfl
@[simp] theorem State.modLink_bays (l : LinkId) (g : Link → Link) : (s.modLink l g).bays = s.bays := rfl
@[simp] theorem State.modLink_readers (l : LinkId) (g : Link → Link) : (s.modLink l g).readers = s.readers := rfl
@[simp] theorem State.modLink_homes (l : LinkId) (g : Link → Link) : (s.modLink l g).homes = s.homes := rfl
@[simp] theorem State.modLink_net (l : LinkId) (g : Link → Link) : (s.modLink l g).net = s.net := rfl
@[simp] theorem State.modLink_syncs (l : LinkId) (g : Link → Link) : (s.modLink l g).syncs = s.syncs := rfl
@[simp] theorem State.modLink_cands (l : LinkId) (g : Link → Link) : (s.modLink l g).cands = s.cands := rfl
@[simp] theorem State.modLink_waits (l : LinkId) (g : Link → Link) : (s.modLink l g).waits = s.waits := rfl
@[simp] theorem State.modLink_archive (l : LinkId) (g : Link → Link) : (s.modLink l g).archive = s.archive := rfl
@[simp] theorem State.modLink_flash (l : LinkId) (g : Link → Link) : (s.modLink l g).flash = s.flash := rfl
@[simp] theorem State.modLink_posted (l : LinkId) (g : Link → Link) : (s.modLink l g).posted = s.posted := rfl
@[simp] theorem State.modLink_reply (l : LinkId) (g : Link → Link) : (s.modLink l g).reply = s.reply := rfl
@[simp] theorem State.modLink_ext (l : LinkId) (g : Link → Link) : (s.modLink l g).ext = s.ext := rfl
@[simp] theorem State.modLink_arrivals (l : LinkId) (g : Link → Link) : (s.modLink l g).arrivals = s.arrivals := rfl
@[simp] theorem State.modLink_free (l : LinkId) (g : Link → Link) : (s.modLink l g).free = s.free := rfl
@[simp] theorem State.modLink_pending (l : LinkId) (g : Link → Link) : (s.modLink l g).pending = s.pending := rfl

/-! ### State.setCarrel -/

@[simp] theorem State.setCarrel_clk (c : CarrelId) (k : Carrel) : (s.setCarrel c k).clk = s.clk := rfl
@[simp] theorem State.setCarrel_pwr (c : CarrelId) (k : Carrel) : (s.setCarrel c k).pwr = s.pwr := rfl
@[simp] theorem State.setCarrel_cur (c : CarrelId) (k : Carrel) : (s.setCarrel c k).cur = s.cur := rfl
@[simp] theorem State.setCarrel_act (c : CarrelId) (k : Carrel) : (s.setCarrel c k).act = s.act := rfl
@[simp] theorem State.setCarrel_inv (c : CarrelId) (k : Carrel) : (s.setCarrel c k).inv = s.inv := rfl
@[simp] theorem State.setCarrel_int (c : CarrelId) (k : Carrel) : (s.setCarrel c k).int = s.int := rfl
@[simp] theorem State.setCarrel_cdx (c : CarrelId) (k : Carrel) : (s.setCarrel c k).cdx = s.cdx := rfl
@[simp] theorem State.setCarrel_bayRegs (c : CarrelId) (k : Carrel) : (s.setCarrel c k).bayRegs = s.bayRegs := rfl
@[simp] theorem State.setCarrel_led (c : CarrelId) (k : Carrel) : (s.setCarrel c k).led = s.led := rfl
@[simp] theorem State.setCarrel_nvs (c : CarrelId) (k : Carrel) : (s.setCarrel c k).nvs = s.nvs := rfl
@[simp] theorem State.setCarrel_mbx (c : CarrelId) (k : Carrel) : (s.setCarrel c k).mbx = s.mbx := rfl
@[simp] theorem State.setCarrel_lnk (c : CarrelId) (k : Carrel) : (s.setCarrel c k).lnk = s.lnk := rfl
@[simp] theorem State.setCarrel_portRegs (c : CarrelId) (k : Carrel) : (s.setCarrel c k).portRegs = s.portRegs := rfl
@[simp] theorem State.setCarrel_mgmt (c : CarrelId) (k : Carrel) : (s.setCarrel c k).mgmt = s.mgmt := rfl
@[simp] theorem State.setCarrel_jtag (c : CarrelId) (k : Carrel) : (s.setCarrel c k).jtag = s.jtag := rfl
@[simp] theorem State.setCarrel_imprint (c : CarrelId) (k : Carrel) : (s.setCarrel c k).imprint = s.imprint := rfl
@[simp] theorem State.setCarrel_folios (c : CarrelId) (k : Carrel) : (s.setCarrel c k).folios = s.folios := rfl
@[simp] theorem State.setCarrel_ports (c : CarrelId) (k : Carrel) : (s.setCarrel c k).ports = s.ports := rfl
@[simp] theorem State.setCarrel_links (c : CarrelId) (k : Carrel) : (s.setCarrel c k).links = s.links := rfl
@[simp] theorem State.setCarrel_routers (c : CarrelId) (k : Carrel) : (s.setCarrel c k).routers = s.routers := rfl
@[simp] theorem State.setCarrel_bays (c : CarrelId) (k : Carrel) : (s.setCarrel c k).bays = s.bays := rfl
@[simp] theorem State.setCarrel_readers (c : CarrelId) (k : Carrel) : (s.setCarrel c k).readers = s.readers := rfl
@[simp] theorem State.setCarrel_homes (c : CarrelId) (k : Carrel) : (s.setCarrel c k).homes = s.homes := rfl
@[simp] theorem State.setCarrel_net (c : CarrelId) (k : Carrel) : (s.setCarrel c k).net = s.net := rfl
@[simp] theorem State.setCarrel_syncs (c : CarrelId) (k : Carrel) : (s.setCarrel c k).syncs = s.syncs := rfl
@[simp] theorem State.setCarrel_cands (c : CarrelId) (k : Carrel) : (s.setCarrel c k).cands = s.cands := rfl
@[simp] theorem State.setCarrel_waits (c : CarrelId) (k : Carrel) : (s.setCarrel c k).waits = s.waits := rfl
@[simp] theorem State.setCarrel_archive (c : CarrelId) (k : Carrel) : (s.setCarrel c k).archive = s.archive := rfl
@[simp] theorem State.setCarrel_flash (c : CarrelId) (k : Carrel) : (s.setCarrel c k).flash = s.flash := rfl
@[simp] theorem State.setCarrel_posted (c : CarrelId) (k : Carrel) : (s.setCarrel c k).posted = s.posted := rfl
@[simp] theorem State.setCarrel_reply (c : CarrelId) (k : Carrel) : (s.setCarrel c k).reply = s.reply := rfl
@[simp] theorem State.setCarrel_ext (c : CarrelId) (k : Carrel) : (s.setCarrel c k).ext = s.ext := rfl
@[simp] theorem State.setCarrel_arrivals (c : CarrelId) (k : Carrel) : (s.setCarrel c k).arrivals = s.arrivals := rfl
@[simp] theorem State.setCarrel_free (c : CarrelId) (k : Carrel) : (s.setCarrel c k).free = s.free := rfl
@[simp] theorem State.setCarrel_pending (c : CarrelId) (k : Carrel) : (s.setCarrel c k).pending = s.pending := rfl

/-! ### State.modCarrel -/

@[simp] theorem State.modCarrel_clk (c : CarrelId) (g : Carrel → Carrel) : (s.modCarrel c g).clk = s.clk := rfl
@[simp] theorem State.modCarrel_pwr (c : CarrelId) (g : Carrel → Carrel) : (s.modCarrel c g).pwr = s.pwr := rfl
@[simp] theorem State.modCarrel_cur (c : CarrelId) (g : Carrel → Carrel) : (s.modCarrel c g).cur = s.cur := rfl
@[simp] theorem State.modCarrel_act (c : CarrelId) (g : Carrel → Carrel) : (s.modCarrel c g).act = s.act := rfl
@[simp] theorem State.modCarrel_inv (c : CarrelId) (g : Carrel → Carrel) : (s.modCarrel c g).inv = s.inv := rfl
@[simp] theorem State.modCarrel_int (c : CarrelId) (g : Carrel → Carrel) : (s.modCarrel c g).int = s.int := rfl
@[simp] theorem State.modCarrel_cdx (c : CarrelId) (g : Carrel → Carrel) : (s.modCarrel c g).cdx = s.cdx := rfl
@[simp] theorem State.modCarrel_bayRegs (c : CarrelId) (g : Carrel → Carrel) : (s.modCarrel c g).bayRegs = s.bayRegs := rfl
@[simp] theorem State.modCarrel_led (c : CarrelId) (g : Carrel → Carrel) : (s.modCarrel c g).led = s.led := rfl
@[simp] theorem State.modCarrel_nvs (c : CarrelId) (g : Carrel → Carrel) : (s.modCarrel c g).nvs = s.nvs := rfl
@[simp] theorem State.modCarrel_mbx (c : CarrelId) (g : Carrel → Carrel) : (s.modCarrel c g).mbx = s.mbx := rfl
@[simp] theorem State.modCarrel_lnk (c : CarrelId) (g : Carrel → Carrel) : (s.modCarrel c g).lnk = s.lnk := rfl
@[simp] theorem State.modCarrel_portRegs (c : CarrelId) (g : Carrel → Carrel) : (s.modCarrel c g).portRegs = s.portRegs := rfl
@[simp] theorem State.modCarrel_mgmt (c : CarrelId) (g : Carrel → Carrel) : (s.modCarrel c g).mgmt = s.mgmt := rfl
@[simp] theorem State.modCarrel_jtag (c : CarrelId) (g : Carrel → Carrel) : (s.modCarrel c g).jtag = s.jtag := rfl
@[simp] theorem State.modCarrel_imprint (c : CarrelId) (g : Carrel → Carrel) : (s.modCarrel c g).imprint = s.imprint := rfl
@[simp] theorem State.modCarrel_folios (c : CarrelId) (g : Carrel → Carrel) : (s.modCarrel c g).folios = s.folios := rfl
@[simp] theorem State.modCarrel_ports (c : CarrelId) (g : Carrel → Carrel) : (s.modCarrel c g).ports = s.ports := rfl
@[simp] theorem State.modCarrel_links (c : CarrelId) (g : Carrel → Carrel) : (s.modCarrel c g).links = s.links := rfl
@[simp] theorem State.modCarrel_routers (c : CarrelId) (g : Carrel → Carrel) : (s.modCarrel c g).routers = s.routers := rfl
@[simp] theorem State.modCarrel_bays (c : CarrelId) (g : Carrel → Carrel) : (s.modCarrel c g).bays = s.bays := rfl
@[simp] theorem State.modCarrel_readers (c : CarrelId) (g : Carrel → Carrel) : (s.modCarrel c g).readers = s.readers := rfl
@[simp] theorem State.modCarrel_homes (c : CarrelId) (g : Carrel → Carrel) : (s.modCarrel c g).homes = s.homes := rfl
@[simp] theorem State.modCarrel_net (c : CarrelId) (g : Carrel → Carrel) : (s.modCarrel c g).net = s.net := rfl
@[simp] theorem State.modCarrel_syncs (c : CarrelId) (g : Carrel → Carrel) : (s.modCarrel c g).syncs = s.syncs := rfl
@[simp] theorem State.modCarrel_cands (c : CarrelId) (g : Carrel → Carrel) : (s.modCarrel c g).cands = s.cands := rfl
@[simp] theorem State.modCarrel_waits (c : CarrelId) (g : Carrel → Carrel) : (s.modCarrel c g).waits = s.waits := rfl
@[simp] theorem State.modCarrel_archive (c : CarrelId) (g : Carrel → Carrel) : (s.modCarrel c g).archive = s.archive := rfl
@[simp] theorem State.modCarrel_flash (c : CarrelId) (g : Carrel → Carrel) : (s.modCarrel c g).flash = s.flash := rfl
@[simp] theorem State.modCarrel_posted (c : CarrelId) (g : Carrel → Carrel) : (s.modCarrel c g).posted = s.posted := rfl
@[simp] theorem State.modCarrel_reply (c : CarrelId) (g : Carrel → Carrel) : (s.modCarrel c g).reply = s.reply := rfl
@[simp] theorem State.modCarrel_ext (c : CarrelId) (g : Carrel → Carrel) : (s.modCarrel c g).ext = s.ext := rfl
@[simp] theorem State.modCarrel_arrivals (c : CarrelId) (g : Carrel → Carrel) : (s.modCarrel c g).arrivals = s.arrivals := rfl
@[simp] theorem State.modCarrel_free (c : CarrelId) (g : Carrel → Carrel) : (s.modCarrel c g).free = s.free := rfl
@[simp] theorem State.modCarrel_pending (c : CarrelId) (g : Carrel → Carrel) : (s.modCarrel c g).pending = s.pending := rfl

/-! ### State.modRouter -/

@[simp] theorem State.modRouter_clk (a : AlcoveId) (g : Router → Router) : (s.modRouter a g).clk = s.clk := rfl
@[simp] theorem State.modRouter_pwr (a : AlcoveId) (g : Router → Router) : (s.modRouter a g).pwr = s.pwr := rfl
@[simp] theorem State.modRouter_cur (a : AlcoveId) (g : Router → Router) : (s.modRouter a g).cur = s.cur := rfl
@[simp] theorem State.modRouter_act (a : AlcoveId) (g : Router → Router) : (s.modRouter a g).act = s.act := rfl
@[simp] theorem State.modRouter_inv (a : AlcoveId) (g : Router → Router) : (s.modRouter a g).inv = s.inv := rfl
@[simp] theorem State.modRouter_int (a : AlcoveId) (g : Router → Router) : (s.modRouter a g).int = s.int := rfl
@[simp] theorem State.modRouter_cdx (a : AlcoveId) (g : Router → Router) : (s.modRouter a g).cdx = s.cdx := rfl
@[simp] theorem State.modRouter_bayRegs (a : AlcoveId) (g : Router → Router) : (s.modRouter a g).bayRegs = s.bayRegs := rfl
@[simp] theorem State.modRouter_led (a : AlcoveId) (g : Router → Router) : (s.modRouter a g).led = s.led := rfl
@[simp] theorem State.modRouter_nvs (a : AlcoveId) (g : Router → Router) : (s.modRouter a g).nvs = s.nvs := rfl
@[simp] theorem State.modRouter_mbx (a : AlcoveId) (g : Router → Router) : (s.modRouter a g).mbx = s.mbx := rfl
@[simp] theorem State.modRouter_lnk (a : AlcoveId) (g : Router → Router) : (s.modRouter a g).lnk = s.lnk := rfl
@[simp] theorem State.modRouter_portRegs (a : AlcoveId) (g : Router → Router) : (s.modRouter a g).portRegs = s.portRegs := rfl
@[simp] theorem State.modRouter_mgmt (a : AlcoveId) (g : Router → Router) : (s.modRouter a g).mgmt = s.mgmt := rfl
@[simp] theorem State.modRouter_jtag (a : AlcoveId) (g : Router → Router) : (s.modRouter a g).jtag = s.jtag := rfl
@[simp] theorem State.modRouter_imprint (a : AlcoveId) (g : Router → Router) : (s.modRouter a g).imprint = s.imprint := rfl
@[simp] theorem State.modRouter_folios (a : AlcoveId) (g : Router → Router) : (s.modRouter a g).folios = s.folios := rfl
@[simp] theorem State.modRouter_ports (a : AlcoveId) (g : Router → Router) : (s.modRouter a g).ports = s.ports := rfl
@[simp] theorem State.modRouter_links (a : AlcoveId) (g : Router → Router) : (s.modRouter a g).links = s.links := rfl
@[simp] theorem State.modRouter_carrels (a : AlcoveId) (g : Router → Router) : (s.modRouter a g).carrels = s.carrels := rfl
@[simp] theorem State.modRouter_bays (a : AlcoveId) (g : Router → Router) : (s.modRouter a g).bays = s.bays := rfl
@[simp] theorem State.modRouter_readers (a : AlcoveId) (g : Router → Router) : (s.modRouter a g).readers = s.readers := rfl
@[simp] theorem State.modRouter_homes (a : AlcoveId) (g : Router → Router) : (s.modRouter a g).homes = s.homes := rfl
@[simp] theorem State.modRouter_net (a : AlcoveId) (g : Router → Router) : (s.modRouter a g).net = s.net := rfl
@[simp] theorem State.modRouter_syncs (a : AlcoveId) (g : Router → Router) : (s.modRouter a g).syncs = s.syncs := rfl
@[simp] theorem State.modRouter_cands (a : AlcoveId) (g : Router → Router) : (s.modRouter a g).cands = s.cands := rfl
@[simp] theorem State.modRouter_waits (a : AlcoveId) (g : Router → Router) : (s.modRouter a g).waits = s.waits := rfl
@[simp] theorem State.modRouter_archive (a : AlcoveId) (g : Router → Router) : (s.modRouter a g).archive = s.archive := rfl
@[simp] theorem State.modRouter_flash (a : AlcoveId) (g : Router → Router) : (s.modRouter a g).flash = s.flash := rfl
@[simp] theorem State.modRouter_posted (a : AlcoveId) (g : Router → Router) : (s.modRouter a g).posted = s.posted := rfl
@[simp] theorem State.modRouter_reply (a : AlcoveId) (g : Router → Router) : (s.modRouter a g).reply = s.reply := rfl
@[simp] theorem State.modRouter_ext (a : AlcoveId) (g : Router → Router) : (s.modRouter a g).ext = s.ext := rfl
@[simp] theorem State.modRouter_arrivals (a : AlcoveId) (g : Router → Router) : (s.modRouter a g).arrivals = s.arrivals := rfl
@[simp] theorem State.modRouter_free (a : AlcoveId) (g : Router → Router) : (s.modRouter a g).free = s.free := rfl
@[simp] theorem State.modRouter_pending (a : AlcoveId) (g : Router → Router) : (s.modRouter a g).pending = s.pending := rfl

/-! ### State.modBay -/

@[simp] theorem State.modBay_clk (b : BayId) (g : Bay → Bay) : (s.modBay b g).clk = s.clk := rfl
@[simp] theorem State.modBay_pwr (b : BayId) (g : Bay → Bay) : (s.modBay b g).pwr = s.pwr := rfl
@[simp] theorem State.modBay_cur (b : BayId) (g : Bay → Bay) : (s.modBay b g).cur = s.cur := rfl
@[simp] theorem State.modBay_act (b : BayId) (g : Bay → Bay) : (s.modBay b g).act = s.act := rfl
@[simp] theorem State.modBay_inv (b : BayId) (g : Bay → Bay) : (s.modBay b g).inv = s.inv := rfl
@[simp] theorem State.modBay_int (b : BayId) (g : Bay → Bay) : (s.modBay b g).int = s.int := rfl
@[simp] theorem State.modBay_cdx (b : BayId) (g : Bay → Bay) : (s.modBay b g).cdx = s.cdx := rfl
@[simp] theorem State.modBay_bayRegs (b : BayId) (g : Bay → Bay) : (s.modBay b g).bayRegs = s.bayRegs := rfl
@[simp] theorem State.modBay_led (b : BayId) (g : Bay → Bay) : (s.modBay b g).led = s.led := rfl
@[simp] theorem State.modBay_nvs (b : BayId) (g : Bay → Bay) : (s.modBay b g).nvs = s.nvs := rfl
@[simp] theorem State.modBay_mbx (b : BayId) (g : Bay → Bay) : (s.modBay b g).mbx = s.mbx := rfl
@[simp] theorem State.modBay_lnk (b : BayId) (g : Bay → Bay) : (s.modBay b g).lnk = s.lnk := rfl
@[simp] theorem State.modBay_portRegs (b : BayId) (g : Bay → Bay) : (s.modBay b g).portRegs = s.portRegs := rfl
@[simp] theorem State.modBay_mgmt (b : BayId) (g : Bay → Bay) : (s.modBay b g).mgmt = s.mgmt := rfl
@[simp] theorem State.modBay_jtag (b : BayId) (g : Bay → Bay) : (s.modBay b g).jtag = s.jtag := rfl
@[simp] theorem State.modBay_imprint (b : BayId) (g : Bay → Bay) : (s.modBay b g).imprint = s.imprint := rfl
@[simp] theorem State.modBay_folios (b : BayId) (g : Bay → Bay) : (s.modBay b g).folios = s.folios := rfl
@[simp] theorem State.modBay_ports (b : BayId) (g : Bay → Bay) : (s.modBay b g).ports = s.ports := rfl
@[simp] theorem State.modBay_links (b : BayId) (g : Bay → Bay) : (s.modBay b g).links = s.links := rfl
@[simp] theorem State.modBay_carrels (b : BayId) (g : Bay → Bay) : (s.modBay b g).carrels = s.carrels := rfl
@[simp] theorem State.modBay_routers (b : BayId) (g : Bay → Bay) : (s.modBay b g).routers = s.routers := rfl
@[simp] theorem State.modBay_readers (b : BayId) (g : Bay → Bay) : (s.modBay b g).readers = s.readers := rfl
@[simp] theorem State.modBay_homes (b : BayId) (g : Bay → Bay) : (s.modBay b g).homes = s.homes := rfl
@[simp] theorem State.modBay_net (b : BayId) (g : Bay → Bay) : (s.modBay b g).net = s.net := rfl
@[simp] theorem State.modBay_syncs (b : BayId) (g : Bay → Bay) : (s.modBay b g).syncs = s.syncs := rfl
@[simp] theorem State.modBay_cands (b : BayId) (g : Bay → Bay) : (s.modBay b g).cands = s.cands := rfl
@[simp] theorem State.modBay_waits (b : BayId) (g : Bay → Bay) : (s.modBay b g).waits = s.waits := rfl
@[simp] theorem State.modBay_archive (b : BayId) (g : Bay → Bay) : (s.modBay b g).archive = s.archive := rfl
@[simp] theorem State.modBay_flash (b : BayId) (g : Bay → Bay) : (s.modBay b g).flash = s.flash := rfl
@[simp] theorem State.modBay_posted (b : BayId) (g : Bay → Bay) : (s.modBay b g).posted = s.posted := rfl
@[simp] theorem State.modBay_reply (b : BayId) (g : Bay → Bay) : (s.modBay b g).reply = s.reply := rfl
@[simp] theorem State.modBay_ext (b : BayId) (g : Bay → Bay) : (s.modBay b g).ext = s.ext := rfl
@[simp] theorem State.modBay_arrivals (b : BayId) (g : Bay → Bay) : (s.modBay b g).arrivals = s.arrivals := rfl
@[simp] theorem State.modBay_free (b : BayId) (g : Bay → Bay) : (s.modBay b g).free = s.free := rfl
@[simp] theorem State.modBay_pending (b : BayId) (g : Bay → Bay) : (s.modBay b g).pending = s.pending := rfl

/-! ### State.modReader -/

@[simp] theorem State.modReader_clk (r : ReaderId) (g : Reader → Reader) : (s.modReader r g).clk = s.clk := rfl
@[simp] theorem State.modReader_pwr (r : ReaderId) (g : Reader → Reader) : (s.modReader r g).pwr = s.pwr := rfl
@[simp] theorem State.modReader_cur (r : ReaderId) (g : Reader → Reader) : (s.modReader r g).cur = s.cur := rfl
@[simp] theorem State.modReader_act (r : ReaderId) (g : Reader → Reader) : (s.modReader r g).act = s.act := rfl
@[simp] theorem State.modReader_inv (r : ReaderId) (g : Reader → Reader) : (s.modReader r g).inv = s.inv := rfl
@[simp] theorem State.modReader_int (r : ReaderId) (g : Reader → Reader) : (s.modReader r g).int = s.int := rfl
@[simp] theorem State.modReader_cdx (r : ReaderId) (g : Reader → Reader) : (s.modReader r g).cdx = s.cdx := rfl
@[simp] theorem State.modReader_bayRegs (r : ReaderId) (g : Reader → Reader) : (s.modReader r g).bayRegs = s.bayRegs := rfl
@[simp] theorem State.modReader_led (r : ReaderId) (g : Reader → Reader) : (s.modReader r g).led = s.led := rfl
@[simp] theorem State.modReader_nvs (r : ReaderId) (g : Reader → Reader) : (s.modReader r g).nvs = s.nvs := rfl
@[simp] theorem State.modReader_mbx (r : ReaderId) (g : Reader → Reader) : (s.modReader r g).mbx = s.mbx := rfl
@[simp] theorem State.modReader_lnk (r : ReaderId) (g : Reader → Reader) : (s.modReader r g).lnk = s.lnk := rfl
@[simp] theorem State.modReader_portRegs (r : ReaderId) (g : Reader → Reader) : (s.modReader r g).portRegs = s.portRegs := rfl
@[simp] theorem State.modReader_mgmt (r : ReaderId) (g : Reader → Reader) : (s.modReader r g).mgmt = s.mgmt := rfl
@[simp] theorem State.modReader_jtag (r : ReaderId) (g : Reader → Reader) : (s.modReader r g).jtag = s.jtag := rfl
@[simp] theorem State.modReader_imprint (r : ReaderId) (g : Reader → Reader) : (s.modReader r g).imprint = s.imprint := rfl
@[simp] theorem State.modReader_folios (r : ReaderId) (g : Reader → Reader) : (s.modReader r g).folios = s.folios := rfl
@[simp] theorem State.modReader_ports (r : ReaderId) (g : Reader → Reader) : (s.modReader r g).ports = s.ports := rfl
@[simp] theorem State.modReader_links (r : ReaderId) (g : Reader → Reader) : (s.modReader r g).links = s.links := rfl
@[simp] theorem State.modReader_carrels (r : ReaderId) (g : Reader → Reader) : (s.modReader r g).carrels = s.carrels := rfl
@[simp] theorem State.modReader_routers (r : ReaderId) (g : Reader → Reader) : (s.modReader r g).routers = s.routers := rfl
@[simp] theorem State.modReader_bays (r : ReaderId) (g : Reader → Reader) : (s.modReader r g).bays = s.bays := rfl
@[simp] theorem State.modReader_homes (r : ReaderId) (g : Reader → Reader) : (s.modReader r g).homes = s.homes := rfl
@[simp] theorem State.modReader_net (r : ReaderId) (g : Reader → Reader) : (s.modReader r g).net = s.net := rfl
@[simp] theorem State.modReader_syncs (r : ReaderId) (g : Reader → Reader) : (s.modReader r g).syncs = s.syncs := rfl
@[simp] theorem State.modReader_cands (r : ReaderId) (g : Reader → Reader) : (s.modReader r g).cands = s.cands := rfl
@[simp] theorem State.modReader_waits (r : ReaderId) (g : Reader → Reader) : (s.modReader r g).waits = s.waits := rfl
@[simp] theorem State.modReader_archive (r : ReaderId) (g : Reader → Reader) : (s.modReader r g).archive = s.archive := rfl
@[simp] theorem State.modReader_flash (r : ReaderId) (g : Reader → Reader) : (s.modReader r g).flash = s.flash := rfl
@[simp] theorem State.modReader_posted (r : ReaderId) (g : Reader → Reader) : (s.modReader r g).posted = s.posted := rfl
@[simp] theorem State.modReader_reply (r : ReaderId) (g : Reader → Reader) : (s.modReader r g).reply = s.reply := rfl
@[simp] theorem State.modReader_ext (r : ReaderId) (g : Reader → Reader) : (s.modReader r g).ext = s.ext := rfl
@[simp] theorem State.modReader_arrivals (r : ReaderId) (g : Reader → Reader) : (s.modReader r g).arrivals = s.arrivals := rfl
@[simp] theorem State.modReader_free (r : ReaderId) (g : Reader → Reader) : (s.modReader r g).free = s.free := rfl
@[simp] theorem State.modReader_pending (r : ReaderId) (g : Reader → Reader) : (s.modReader r g).pending = s.pending := rfl

/-! ### State.modHome -/

@[simp] theorem State.modHome_clk (h : Nat) (g : Home → Home) : (s.modHome h g).clk = s.clk := rfl
@[simp] theorem State.modHome_pwr (h : Nat) (g : Home → Home) : (s.modHome h g).pwr = s.pwr := rfl
@[simp] theorem State.modHome_cur (h : Nat) (g : Home → Home) : (s.modHome h g).cur = s.cur := rfl
@[simp] theorem State.modHome_act (h : Nat) (g : Home → Home) : (s.modHome h g).act = s.act := rfl
@[simp] theorem State.modHome_inv (h : Nat) (g : Home → Home) : (s.modHome h g).inv = s.inv := rfl
@[simp] theorem State.modHome_int (h : Nat) (g : Home → Home) : (s.modHome h g).int = s.int := rfl
@[simp] theorem State.modHome_cdx (h : Nat) (g : Home → Home) : (s.modHome h g).cdx = s.cdx := rfl
@[simp] theorem State.modHome_bayRegs (h : Nat) (g : Home → Home) : (s.modHome h g).bayRegs = s.bayRegs := rfl
@[simp] theorem State.modHome_led (h : Nat) (g : Home → Home) : (s.modHome h g).led = s.led := rfl
@[simp] theorem State.modHome_nvs (h : Nat) (g : Home → Home) : (s.modHome h g).nvs = s.nvs := rfl
@[simp] theorem State.modHome_mbx (h : Nat) (g : Home → Home) : (s.modHome h g).mbx = s.mbx := rfl
@[simp] theorem State.modHome_lnk (h : Nat) (g : Home → Home) : (s.modHome h g).lnk = s.lnk := rfl
@[simp] theorem State.modHome_portRegs (h : Nat) (g : Home → Home) : (s.modHome h g).portRegs = s.portRegs := rfl
@[simp] theorem State.modHome_mgmt (h : Nat) (g : Home → Home) : (s.modHome h g).mgmt = s.mgmt := rfl
@[simp] theorem State.modHome_jtag (h : Nat) (g : Home → Home) : (s.modHome h g).jtag = s.jtag := rfl
@[simp] theorem State.modHome_imprint (h : Nat) (g : Home → Home) : (s.modHome h g).imprint = s.imprint := rfl
@[simp] theorem State.modHome_folios (h : Nat) (g : Home → Home) : (s.modHome h g).folios = s.folios := rfl
@[simp] theorem State.modHome_ports (h : Nat) (g : Home → Home) : (s.modHome h g).ports = s.ports := rfl
@[simp] theorem State.modHome_links (h : Nat) (g : Home → Home) : (s.modHome h g).links = s.links := rfl
@[simp] theorem State.modHome_carrels (h : Nat) (g : Home → Home) : (s.modHome h g).carrels = s.carrels := rfl
@[simp] theorem State.modHome_routers (h : Nat) (g : Home → Home) : (s.modHome h g).routers = s.routers := rfl
@[simp] theorem State.modHome_bays (h : Nat) (g : Home → Home) : (s.modHome h g).bays = s.bays := rfl
@[simp] theorem State.modHome_readers (h : Nat) (g : Home → Home) : (s.modHome h g).readers = s.readers := rfl
@[simp] theorem State.modHome_net (h : Nat) (g : Home → Home) : (s.modHome h g).net = s.net := rfl
@[simp] theorem State.modHome_syncs (h : Nat) (g : Home → Home) : (s.modHome h g).syncs = s.syncs := rfl
@[simp] theorem State.modHome_cands (h : Nat) (g : Home → Home) : (s.modHome h g).cands = s.cands := rfl
@[simp] theorem State.modHome_waits (h : Nat) (g : Home → Home) : (s.modHome h g).waits = s.waits := rfl
@[simp] theorem State.modHome_archive (h : Nat) (g : Home → Home) : (s.modHome h g).archive = s.archive := rfl
@[simp] theorem State.modHome_flash (h : Nat) (g : Home → Home) : (s.modHome h g).flash = s.flash := rfl
@[simp] theorem State.modHome_posted (h : Nat) (g : Home → Home) : (s.modHome h g).posted = s.posted := rfl
@[simp] theorem State.modHome_reply (h : Nat) (g : Home → Home) : (s.modHome h g).reply = s.reply := rfl
@[simp] theorem State.modHome_ext (h : Nat) (g : Home → Home) : (s.modHome h g).ext = s.ext := rfl
@[simp] theorem State.modHome_arrivals (h : Nat) (g : Home → Home) : (s.modHome h g).arrivals = s.arrivals := rfl
@[simp] theorem State.modHome_free (h : Nat) (g : Home → Home) : (s.modHome h g).free = s.free := rfl
@[simp] theorem State.modHome_pending (h : Nat) (g : Home → Home) : (s.modHome h g).pending = s.pending := rfl

/-! ### State.inject -/

@[simp] theorem State.inject_clk (a : AlcoveId) (port : RouterPort) (ps : List Packet) : (s.inject a port ps).clk = s.clk := rfl
@[simp] theorem State.inject_pwr (a : AlcoveId) (port : RouterPort) (ps : List Packet) : (s.inject a port ps).pwr = s.pwr := rfl
@[simp] theorem State.inject_cur (a : AlcoveId) (port : RouterPort) (ps : List Packet) : (s.inject a port ps).cur = s.cur := rfl
@[simp] theorem State.inject_act (a : AlcoveId) (port : RouterPort) (ps : List Packet) : (s.inject a port ps).act = s.act := rfl
@[simp] theorem State.inject_inv (a : AlcoveId) (port : RouterPort) (ps : List Packet) : (s.inject a port ps).inv = s.inv := rfl
@[simp] theorem State.inject_int (a : AlcoveId) (port : RouterPort) (ps : List Packet) : (s.inject a port ps).int = s.int := rfl
@[simp] theorem State.inject_cdx (a : AlcoveId) (port : RouterPort) (ps : List Packet) : (s.inject a port ps).cdx = s.cdx := rfl
@[simp] theorem State.inject_bayRegs (a : AlcoveId) (port : RouterPort) (ps : List Packet) : (s.inject a port ps).bayRegs = s.bayRegs := rfl
@[simp] theorem State.inject_led (a : AlcoveId) (port : RouterPort) (ps : List Packet) : (s.inject a port ps).led = s.led := rfl
@[simp] theorem State.inject_nvs (a : AlcoveId) (port : RouterPort) (ps : List Packet) : (s.inject a port ps).nvs = s.nvs := rfl
@[simp] theorem State.inject_mbx (a : AlcoveId) (port : RouterPort) (ps : List Packet) : (s.inject a port ps).mbx = s.mbx := rfl
@[simp] theorem State.inject_lnk (a : AlcoveId) (port : RouterPort) (ps : List Packet) : (s.inject a port ps).lnk = s.lnk := rfl
@[simp] theorem State.inject_portRegs (a : AlcoveId) (port : RouterPort) (ps : List Packet) : (s.inject a port ps).portRegs = s.portRegs := rfl
@[simp] theorem State.inject_mgmt (a : AlcoveId) (port : RouterPort) (ps : List Packet) : (s.inject a port ps).mgmt = s.mgmt := rfl
@[simp] theorem State.inject_jtag (a : AlcoveId) (port : RouterPort) (ps : List Packet) : (s.inject a port ps).jtag = s.jtag := rfl
@[simp] theorem State.inject_imprint (a : AlcoveId) (port : RouterPort) (ps : List Packet) : (s.inject a port ps).imprint = s.imprint := rfl
@[simp] theorem State.inject_folios (a : AlcoveId) (port : RouterPort) (ps : List Packet) : (s.inject a port ps).folios = s.folios := rfl
@[simp] theorem State.inject_ports (a : AlcoveId) (port : RouterPort) (ps : List Packet) : (s.inject a port ps).ports = s.ports := rfl
@[simp] theorem State.inject_links (a : AlcoveId) (port : RouterPort) (ps : List Packet) : (s.inject a port ps).links = s.links := rfl
@[simp] theorem State.inject_carrels (a : AlcoveId) (port : RouterPort) (ps : List Packet) : (s.inject a port ps).carrels = s.carrels := rfl
@[simp] theorem State.inject_routers (a : AlcoveId) (port : RouterPort) (ps : List Packet) : (s.inject a port ps).routers = s.routers := rfl
@[simp] theorem State.inject_bays (a : AlcoveId) (port : RouterPort) (ps : List Packet) : (s.inject a port ps).bays = s.bays := rfl
@[simp] theorem State.inject_readers (a : AlcoveId) (port : RouterPort) (ps : List Packet) : (s.inject a port ps).readers = s.readers := rfl
@[simp] theorem State.inject_homes (a : AlcoveId) (port : RouterPort) (ps : List Packet) : (s.inject a port ps).homes = s.homes := rfl
@[simp] theorem State.inject_syncs (a : AlcoveId) (port : RouterPort) (ps : List Packet) : (s.inject a port ps).syncs = s.syncs := rfl
@[simp] theorem State.inject_cands (a : AlcoveId) (port : RouterPort) (ps : List Packet) : (s.inject a port ps).cands = s.cands := rfl
@[simp] theorem State.inject_waits (a : AlcoveId) (port : RouterPort) (ps : List Packet) : (s.inject a port ps).waits = s.waits := rfl
@[simp] theorem State.inject_archive (a : AlcoveId) (port : RouterPort) (ps : List Packet) : (s.inject a port ps).archive = s.archive := rfl
@[simp] theorem State.inject_flash (a : AlcoveId) (port : RouterPort) (ps : List Packet) : (s.inject a port ps).flash = s.flash := rfl
@[simp] theorem State.inject_posted (a : AlcoveId) (port : RouterPort) (ps : List Packet) : (s.inject a port ps).posted = s.posted := rfl
@[simp] theorem State.inject_reply (a : AlcoveId) (port : RouterPort) (ps : List Packet) : (s.inject a port ps).reply = s.reply := rfl
@[simp] theorem State.inject_ext (a : AlcoveId) (port : RouterPort) (ps : List Packet) : (s.inject a port ps).ext = s.ext := rfl
@[simp] theorem State.inject_arrivals (a : AlcoveId) (port : RouterPort) (ps : List Packet) : (s.inject a port ps).arrivals = s.arrivals := rfl
@[simp] theorem State.inject_free (a : AlcoveId) (port : RouterPort) (ps : List Packet) : (s.inject a port ps).free = s.free := rfl
@[simp] theorem State.inject_pending (a : AlcoveId) (port : RouterPort) (ps : List Packet) : (s.inject a port ps).pending = s.pending := rfl

/-! ### State.takeOff -/

@[simp] theorem State.takeOff_clk (w : Wire) (p : Packet) : (s.takeOff w p).clk = s.clk := rfl
@[simp] theorem State.takeOff_pwr (w : Wire) (p : Packet) : (s.takeOff w p).pwr = s.pwr := rfl
@[simp] theorem State.takeOff_cur (w : Wire) (p : Packet) : (s.takeOff w p).cur = s.cur := rfl
@[simp] theorem State.takeOff_act (w : Wire) (p : Packet) : (s.takeOff w p).act = s.act := rfl
@[simp] theorem State.takeOff_inv (w : Wire) (p : Packet) : (s.takeOff w p).inv = s.inv := rfl
@[simp] theorem State.takeOff_int (w : Wire) (p : Packet) : (s.takeOff w p).int = s.int := rfl
@[simp] theorem State.takeOff_cdx (w : Wire) (p : Packet) : (s.takeOff w p).cdx = s.cdx := rfl
@[simp] theorem State.takeOff_bayRegs (w : Wire) (p : Packet) : (s.takeOff w p).bayRegs = s.bayRegs := rfl
@[simp] theorem State.takeOff_led (w : Wire) (p : Packet) : (s.takeOff w p).led = s.led := rfl
@[simp] theorem State.takeOff_nvs (w : Wire) (p : Packet) : (s.takeOff w p).nvs = s.nvs := rfl
@[simp] theorem State.takeOff_mbx (w : Wire) (p : Packet) : (s.takeOff w p).mbx = s.mbx := rfl
@[simp] theorem State.takeOff_lnk (w : Wire) (p : Packet) : (s.takeOff w p).lnk = s.lnk := rfl
@[simp] theorem State.takeOff_portRegs (w : Wire) (p : Packet) : (s.takeOff w p).portRegs = s.portRegs := rfl
@[simp] theorem State.takeOff_mgmt (w : Wire) (p : Packet) : (s.takeOff w p).mgmt = s.mgmt := rfl
@[simp] theorem State.takeOff_jtag (w : Wire) (p : Packet) : (s.takeOff w p).jtag = s.jtag := rfl
@[simp] theorem State.takeOff_imprint (w : Wire) (p : Packet) : (s.takeOff w p).imprint = s.imprint := rfl
@[simp] theorem State.takeOff_folios (w : Wire) (p : Packet) : (s.takeOff w p).folios = s.folios := rfl
@[simp] theorem State.takeOff_ports (w : Wire) (p : Packet) : (s.takeOff w p).ports = s.ports := rfl
@[simp] theorem State.takeOff_links (w : Wire) (p : Packet) : (s.takeOff w p).links = s.links := rfl
@[simp] theorem State.takeOff_carrels (w : Wire) (p : Packet) : (s.takeOff w p).carrels = s.carrels := rfl
@[simp] theorem State.takeOff_routers (w : Wire) (p : Packet) : (s.takeOff w p).routers = s.routers := rfl
@[simp] theorem State.takeOff_bays (w : Wire) (p : Packet) : (s.takeOff w p).bays = s.bays := rfl
@[simp] theorem State.takeOff_readers (w : Wire) (p : Packet) : (s.takeOff w p).readers = s.readers := rfl
@[simp] theorem State.takeOff_homes (w : Wire) (p : Packet) : (s.takeOff w p).homes = s.homes := rfl
@[simp] theorem State.takeOff_syncs (w : Wire) (p : Packet) : (s.takeOff w p).syncs = s.syncs := rfl
@[simp] theorem State.takeOff_cands (w : Wire) (p : Packet) : (s.takeOff w p).cands = s.cands := rfl
@[simp] theorem State.takeOff_waits (w : Wire) (p : Packet) : (s.takeOff w p).waits = s.waits := rfl
@[simp] theorem State.takeOff_archive (w : Wire) (p : Packet) : (s.takeOff w p).archive = s.archive := rfl
@[simp] theorem State.takeOff_flash (w : Wire) (p : Packet) : (s.takeOff w p).flash = s.flash := rfl
@[simp] theorem State.takeOff_posted (w : Wire) (p : Packet) : (s.takeOff w p).posted = s.posted := rfl
@[simp] theorem State.takeOff_reply (w : Wire) (p : Packet) : (s.takeOff w p).reply = s.reply := rfl
@[simp] theorem State.takeOff_ext (w : Wire) (p : Packet) : (s.takeOff w p).ext = s.ext := rfl
@[simp] theorem State.takeOff_arrivals (w : Wire) (p : Packet) : (s.takeOff w p).arrivals = s.arrivals := rfl
@[simp] theorem State.takeOff_free (w : Wire) (p : Packet) : (s.takeOff w p).free = s.free := rfl
@[simp] theorem State.takeOff_pending (w : Wire) (p : Packet) : (s.takeOff w p).pending = s.pending := rfl

/-! ### Reading one table after another is written -/

@[simp] theorem State.modFolio_port (f : FolioId) (g : Folio → Folio) (x : PortId) : (s.modFolio f g).port x = s.port x := rfl
@[simp] theorem State.modFolio_link (f : FolioId) (g : Folio → Folio) (x : LinkId) : (s.modFolio f g).link x = s.link x := rfl
@[simp] theorem State.modFolio_carrel (f : FolioId) (g : Folio → Folio) (x : CarrelId) : (s.modFolio f g).carrel x = s.carrel x := rfl
@[simp] theorem State.modFolio_router (f : FolioId) (g : Folio → Folio) (x : AlcoveId) : (s.modFolio f g).router x = s.router x := rfl
@[simp] theorem State.modFolio_bay (f : FolioId) (g : Folio → Folio) (x : BayId) : (s.modFolio f g).bay x = s.bay x := rfl
@[simp] theorem State.modFolio_reader (f : FolioId) (g : Folio → Folio) (x : ReaderId) : (s.modFolio f g).reader x = s.reader x := rfl
@[simp] theorem State.modFolio_home (f : FolioId) (g : Folio → Folio) (x : Nat) : (s.modFolio f g).home x = s.home x := rfl
@[simp] theorem State.modPort_folio (p : PortId) (g : Port → Port) (x : FolioId) : (s.modPort p g).folio x = s.folio x := rfl
@[simp] theorem State.modPort_link (p : PortId) (g : Port → Port) (x : LinkId) : (s.modPort p g).link x = s.link x := rfl
@[simp] theorem State.modPort_carrel (p : PortId) (g : Port → Port) (x : CarrelId) : (s.modPort p g).carrel x = s.carrel x := rfl
@[simp] theorem State.modPort_router (p : PortId) (g : Port → Port) (x : AlcoveId) : (s.modPort p g).router x = s.router x := rfl
@[simp] theorem State.modPort_bay (p : PortId) (g : Port → Port) (x : BayId) : (s.modPort p g).bay x = s.bay x := rfl
@[simp] theorem State.modPort_reader (p : PortId) (g : Port → Port) (x : ReaderId) : (s.modPort p g).reader x = s.reader x := rfl
@[simp] theorem State.modPort_home (p : PortId) (g : Port → Port) (x : Nat) : (s.modPort p g).home x = s.home x := rfl
@[simp] theorem State.modLink_folio (l : LinkId) (g : Link → Link) (x : FolioId) : (s.modLink l g).folio x = s.folio x := rfl
@[simp] theorem State.modLink_port (l : LinkId) (g : Link → Link) (x : PortId) : (s.modLink l g).port x = s.port x := rfl
@[simp] theorem State.modLink_carrel (l : LinkId) (g : Link → Link) (x : CarrelId) : (s.modLink l g).carrel x = s.carrel x := rfl
@[simp] theorem State.modLink_router (l : LinkId) (g : Link → Link) (x : AlcoveId) : (s.modLink l g).router x = s.router x := rfl
@[simp] theorem State.modLink_bay (l : LinkId) (g : Link → Link) (x : BayId) : (s.modLink l g).bay x = s.bay x := rfl
@[simp] theorem State.modLink_reader (l : LinkId) (g : Link → Link) (x : ReaderId) : (s.modLink l g).reader x = s.reader x := rfl
@[simp] theorem State.modLink_home (l : LinkId) (g : Link → Link) (x : Nat) : (s.modLink l g).home x = s.home x := rfl
@[simp] theorem State.setCarrel_folio (c : CarrelId) (k : Carrel) (x : FolioId) : (s.setCarrel c k).folio x = s.folio x := rfl
@[simp] theorem State.setCarrel_port (c : CarrelId) (k : Carrel) (x : PortId) : (s.setCarrel c k).port x = s.port x := rfl
@[simp] theorem State.setCarrel_link (c : CarrelId) (k : Carrel) (x : LinkId) : (s.setCarrel c k).link x = s.link x := rfl
@[simp] theorem State.setCarrel_router (c : CarrelId) (k : Carrel) (x : AlcoveId) : (s.setCarrel c k).router x = s.router x := rfl
@[simp] theorem State.setCarrel_bay (c : CarrelId) (k : Carrel) (x : BayId) : (s.setCarrel c k).bay x = s.bay x := rfl
@[simp] theorem State.setCarrel_reader (c : CarrelId) (k : Carrel) (x : ReaderId) : (s.setCarrel c k).reader x = s.reader x := rfl
@[simp] theorem State.setCarrel_home (c : CarrelId) (k : Carrel) (x : Nat) : (s.setCarrel c k).home x = s.home x := rfl
@[simp] theorem State.modCarrel_folio (c : CarrelId) (g : Carrel → Carrel) (x : FolioId) : (s.modCarrel c g).folio x = s.folio x := rfl
@[simp] theorem State.modCarrel_port (c : CarrelId) (g : Carrel → Carrel) (x : PortId) : (s.modCarrel c g).port x = s.port x := rfl
@[simp] theorem State.modCarrel_link (c : CarrelId) (g : Carrel → Carrel) (x : LinkId) : (s.modCarrel c g).link x = s.link x := rfl
@[simp] theorem State.modCarrel_router (c : CarrelId) (g : Carrel → Carrel) (x : AlcoveId) : (s.modCarrel c g).router x = s.router x := rfl
@[simp] theorem State.modCarrel_bay (c : CarrelId) (g : Carrel → Carrel) (x : BayId) : (s.modCarrel c g).bay x = s.bay x := rfl
@[simp] theorem State.modCarrel_reader (c : CarrelId) (g : Carrel → Carrel) (x : ReaderId) : (s.modCarrel c g).reader x = s.reader x := rfl
@[simp] theorem State.modCarrel_home (c : CarrelId) (g : Carrel → Carrel) (x : Nat) : (s.modCarrel c g).home x = s.home x := rfl
@[simp] theorem State.modRouter_folio (a : AlcoveId) (g : Router → Router) (x : FolioId) : (s.modRouter a g).folio x = s.folio x := rfl
@[simp] theorem State.modRouter_port (a : AlcoveId) (g : Router → Router) (x : PortId) : (s.modRouter a g).port x = s.port x := rfl
@[simp] theorem State.modRouter_link (a : AlcoveId) (g : Router → Router) (x : LinkId) : (s.modRouter a g).link x = s.link x := rfl
@[simp] theorem State.modRouter_carrel (a : AlcoveId) (g : Router → Router) (x : CarrelId) : (s.modRouter a g).carrel x = s.carrel x := rfl
@[simp] theorem State.modRouter_bay (a : AlcoveId) (g : Router → Router) (x : BayId) : (s.modRouter a g).bay x = s.bay x := rfl
@[simp] theorem State.modRouter_reader (a : AlcoveId) (g : Router → Router) (x : ReaderId) : (s.modRouter a g).reader x = s.reader x := rfl
@[simp] theorem State.modRouter_home (a : AlcoveId) (g : Router → Router) (x : Nat) : (s.modRouter a g).home x = s.home x := rfl
@[simp] theorem State.modBay_folio (b : BayId) (g : Bay → Bay) (x : FolioId) : (s.modBay b g).folio x = s.folio x := rfl
@[simp] theorem State.modBay_port (b : BayId) (g : Bay → Bay) (x : PortId) : (s.modBay b g).port x = s.port x := rfl
@[simp] theorem State.modBay_link (b : BayId) (g : Bay → Bay) (x : LinkId) : (s.modBay b g).link x = s.link x := rfl
@[simp] theorem State.modBay_carrel (b : BayId) (g : Bay → Bay) (x : CarrelId) : (s.modBay b g).carrel x = s.carrel x := rfl
@[simp] theorem State.modBay_router (b : BayId) (g : Bay → Bay) (x : AlcoveId) : (s.modBay b g).router x = s.router x := rfl
@[simp] theorem State.modBay_reader (b : BayId) (g : Bay → Bay) (x : ReaderId) : (s.modBay b g).reader x = s.reader x := rfl
@[simp] theorem State.modBay_home (b : BayId) (g : Bay → Bay) (x : Nat) : (s.modBay b g).home x = s.home x := rfl
@[simp] theorem State.modReader_folio (r : ReaderId) (g : Reader → Reader) (x : FolioId) : (s.modReader r g).folio x = s.folio x := rfl
@[simp] theorem State.modReader_port (r : ReaderId) (g : Reader → Reader) (x : PortId) : (s.modReader r g).port x = s.port x := rfl
@[simp] theorem State.modReader_link (r : ReaderId) (g : Reader → Reader) (x : LinkId) : (s.modReader r g).link x = s.link x := rfl
@[simp] theorem State.modReader_carrel (r : ReaderId) (g : Reader → Reader) (x : CarrelId) : (s.modReader r g).carrel x = s.carrel x := rfl
@[simp] theorem State.modReader_router (r : ReaderId) (g : Reader → Reader) (x : AlcoveId) : (s.modReader r g).router x = s.router x := rfl
@[simp] theorem State.modReader_bay (r : ReaderId) (g : Reader → Reader) (x : BayId) : (s.modReader r g).bay x = s.bay x := rfl
@[simp] theorem State.modReader_home (r : ReaderId) (g : Reader → Reader) (x : Nat) : (s.modReader r g).home x = s.home x := rfl
@[simp] theorem State.modHome_folio (h : Nat) (g : Home → Home) (x : FolioId) : (s.modHome h g).folio x = s.folio x := rfl
@[simp] theorem State.modHome_port (h : Nat) (g : Home → Home) (x : PortId) : (s.modHome h g).port x = s.port x := rfl
@[simp] theorem State.modHome_link (h : Nat) (g : Home → Home) (x : LinkId) : (s.modHome h g).link x = s.link x := rfl
@[simp] theorem State.modHome_carrel (h : Nat) (g : Home → Home) (x : CarrelId) : (s.modHome h g).carrel x = s.carrel x := rfl
@[simp] theorem State.modHome_router (h : Nat) (g : Home → Home) (x : AlcoveId) : (s.modHome h g).router x = s.router x := rfl
@[simp] theorem State.modHome_bay (h : Nat) (g : Home → Home) (x : BayId) : (s.modHome h g).bay x = s.bay x := rfl
@[simp] theorem State.modHome_reader (h : Nat) (g : Home → Home) (x : ReaderId) : (s.modHome h g).reader x = s.reader x := rfl
@[simp] theorem State.inject_folio (a : AlcoveId) (port : RouterPort) (ps : List Packet) (x : FolioId) : (s.inject a port ps).folio x = s.folio x := rfl
@[simp] theorem State.inject_port (a : AlcoveId) (port : RouterPort) (ps : List Packet) (x : PortId) : (s.inject a port ps).port x = s.port x := rfl
@[simp] theorem State.inject_link (a : AlcoveId) (port : RouterPort) (ps : List Packet) (x : LinkId) : (s.inject a port ps).link x = s.link x := rfl
@[simp] theorem State.inject_carrel (a : AlcoveId) (port : RouterPort) (ps : List Packet) (x : CarrelId) : (s.inject a port ps).carrel x = s.carrel x := rfl
@[simp] theorem State.inject_router (a : AlcoveId) (port : RouterPort) (ps : List Packet) (x : AlcoveId) : (s.inject a port ps).router x = s.router x := rfl
@[simp] theorem State.inject_bay (a : AlcoveId) (port : RouterPort) (ps : List Packet) (x : BayId) : (s.inject a port ps).bay x = s.bay x := rfl
@[simp] theorem State.inject_reader (a : AlcoveId) (port : RouterPort) (ps : List Packet) (x : ReaderId) : (s.inject a port ps).reader x = s.reader x := rfl
@[simp] theorem State.inject_home (a : AlcoveId) (port : RouterPort) (ps : List Packet) (x : Nat) : (s.inject a port ps).home x = s.home x := rfl
@[simp] theorem State.takeOff_folio (w : Wire) (p : Packet) (x : FolioId) : (s.takeOff w p).folio x = s.folio x := rfl
@[simp] theorem State.takeOff_port (w : Wire) (p : Packet) (x : PortId) : (s.takeOff w p).port x = s.port x := rfl
@[simp] theorem State.takeOff_link (w : Wire) (p : Packet) (x : LinkId) : (s.takeOff w p).link x = s.link x := rfl
@[simp] theorem State.takeOff_carrel (w : Wire) (p : Packet) (x : CarrelId) : (s.takeOff w p).carrel x = s.carrel x := rfl
@[simp] theorem State.takeOff_router (w : Wire) (p : Packet) (x : AlcoveId) : (s.takeOff w p).router x = s.router x := rfl
@[simp] theorem State.takeOff_bay (w : Wire) (p : Packet) (x : BayId) : (s.takeOff w p).bay x = s.bay x := rfl
@[simp] theorem State.takeOff_reader (w : Wire) (p : Packet) (x : ReaderId) : (s.takeOff w p).reader x = s.reader x := rfl
@[simp] theorem State.takeOff_home (w : Wire) (p : Packet) (x : Nat) : (s.takeOff w p).home x = s.home x := rfl

/-! ### Reading a table after a write of it -/

theorem CarrelId.key_inj {c d : CarrelId} (h : c.key = d.key) : c = d := by
  obtain ⟨⟨x, hx⟩, ⟨y, hy⟩⟩ := c
  obtain ⟨⟨x', hx'⟩, ⟨y', hy'⟩⟩ := d
  simp only [CarrelId.key] at h
  have h1 : y = y' := by omega
  have h2 : x = x' := by omega
  subst h1; subst h2; rfl

theorem AlcoveId.key_inj {a b : AlcoveId} (h : a.key = b.key) : a = b := by
  obtain ⟨⟨x, hx⟩, ⟨y, hy⟩⟩ := a
  obtain ⟨⟨x', hx'⟩, ⟨y', hy'⟩⟩ := b
  simp only [AlcoveId.key] at h
  have h1 : y = y' := by omega
  have h2 : x = x' := by omega
  subst h1; subst h2; rfl

@[simp] theorem State.modFolio_same (x : FolioId) (g : Folio → Folio) : (s.modFolio x g).folio x = g (s.folio x) :=
  Tbl.get_set_same _ _ _ _
theorem State.modFolio_other {x y : FolioId} (h : y ≠ x) (g : Folio → Folio) : (s.modFolio x g).folio y = s.folio y :=
  Tbl.get_set_other _ _ (fun e => h (Fin.ext e)) _
@[simp] theorem State.modPort_same (x : PortId) (g : Port → Port) : (s.modPort x g).port x = g (s.port x) :=
  Tbl.get_set_same _ _ _ _
theorem State.modPort_other {x y : PortId} (h : y ≠ x) (g : Port → Port) : (s.modPort x g).port y = s.port y :=
  Tbl.get_set_other _ _ (fun e => h (Fin.ext e)) _
@[simp] theorem State.modLink_same (x : LinkId) (g : Link → Link) : (s.modLink x g).link x = g (s.link x) :=
  Tbl.get_set_same _ _ _ _
theorem State.modLink_other {x y : LinkId} (h : y ≠ x) (g : Link → Link) : (s.modLink x g).link y = s.link y :=
  Tbl.get_set_other _ _ (fun e => h (Fin.ext e)) _
@[simp] theorem State.modRouter_same (x : AlcoveId) (g : Router → Router) : (s.modRouter x g).router x = g (s.router x) :=
  Tbl.get_set_same _ _ _ _
theorem State.modRouter_other {x y : AlcoveId} (h : y ≠ x) (g : Router → Router) : (s.modRouter x g).router y = s.router y :=
  Tbl.get_set_other _ _ (fun e => h (AlcoveId.key_inj e)) _
@[simp] theorem State.modBay_same (x : BayId) (g : Bay → Bay) : (s.modBay x g).bay x = g (s.bay x) :=
  Tbl.get_set_same _ _ _ _
theorem State.modBay_other {x y : BayId} (h : y ≠ x) (g : Bay → Bay) : (s.modBay x g).bay y = s.bay y :=
  Tbl.get_set_other _ _ (fun e => h (BitVec.eq_of_toNat_eq e)) _
@[simp] theorem State.modReader_same (x : ReaderId) (g : Reader → Reader) : (s.modReader x g).reader x = g (s.reader x) :=
  Tbl.get_set_same _ _ _ _
theorem State.modReader_other {x y : ReaderId} (h : y ≠ x) (g : Reader → Reader) : (s.modReader x g).reader y = s.reader y :=
  Tbl.get_set_other _ _ (fun e => h (BitVec.eq_of_toNat_eq e)) _
@[simp] theorem State.modHome_same (x : Nat) (g : Home → Home) : (s.modHome x g).home x = g (s.home x) :=
  Tbl.get_set_same _ _ _ _
theorem State.modHome_other {x y : Nat} (h : y ≠ x) (g : Home → Home) : (s.modHome x g).home y = s.home y :=
  Tbl.get_set_other _ _ (fun e => h (id e)) _
@[simp] theorem State.modCarrel_same (x : CarrelId) (g : Carrel → Carrel) : (s.modCarrel x g).carrel x = g (s.carrel x) :=
  Tbl.get_set_same _ _ _ _
theorem State.modCarrel_other {x y : CarrelId} (h : y ≠ x) (g : Carrel → Carrel) : (s.modCarrel x g).carrel y = s.carrel y :=
  Tbl.get_set_other _ _ (fun e => h (CarrelId.key_inj e)) _
@[simp] theorem State.setCarrel_same (c : CarrelId) (k : Carrel) : (s.setCarrel c k).carrel c = k :=
  Tbl.get_set_same _ _ _ _
theorem State.setCarrel_other {c d : CarrelId} (h : d ≠ c) (k : Carrel) : (s.setCarrel c k).carrel d = s.carrel d :=
  Tbl.get_set_other _ _ (fun e => h (CarrelId.key_inj e)) _

/-- The archive and the flash have the canonical form at reset. -/
theorem State.reset_memories_wf :
    Memory.wf Memory.blank State.reset.archive = true ∧ Memory.wf Memory.erased State.reset.flash = true := ⟨rfl, rfl⟩

end Sys2Proof.Machine
end

