-- ==== Sys2Proof/Laws/Issue.lean ====
section
/-! SUPPORT. Laws/Issue.lean: everything an issue of the scalar core can do, said once: it waits, faults or goes on. -/

namespace Sys2Proof.Machine

/-! ### Registers -/

@[simp] theorem CarrelRegs.setG_pc (r : CarrelRegs) (i : BitVec 5) (v : Word) : (r.setG i v).pc = r.pc := by
  unfold CarrelRegs.setG; split <;> rfl
@[simp] theorem CarrelRegs.setG_a (r : CarrelRegs) (i : BitVec 5) (v : Word) : (r.setG i v).a = r.a := by
  unfold CarrelRegs.setG; split <;> rfl
@[simp] theorem CarrelRegs.setG_p (r : CarrelRegs) (i : BitVec 5) (v : Word) : (r.setG i v).p = r.p := by
  unfold CarrelRegs.setG; split <;> rfl
@[simp] theorem CarrelRegs.setG_pg (r : CarrelRegs) (i : BitVec 5) (v : Word) : (r.setG i v).pg = r.pg := by
  unfold CarrelRegs.setG; split <;> rfl
@[simp] theorem CarrelRegs.setG_st (r : CarrelRegs) (i : BitVec 5) (v : Word) : (r.setG i v).st = r.st := by
  unfold CarrelRegs.setG; split <;> rfl
@[simp] theorem CarrelRegs.setG_rc (r : CarrelRegs) (i : BitVec 5) (v : Word) : (r.setG i v).rc = r.rc := by
  unfold CarrelRegs.setG; split <;> rfl
@[simp] theorem CarrelRegs.setG_tile (r : CarrelRegs) (i : BitVec 5) (v : Word) : (r.setG i v).tile = r.tile := by
  unfold CarrelRegs.setG; split <;> rfl
@[simp] theorem CarrelRegs.setG_switch (r : CarrelRegs) (i : BitVec 5) (v : Word) : (r.setG i v).switch = r.switch := by
  unfold CarrelRegs.setG; split <;> rfl
@[simp] theorem CarrelRegs.setP_pc (r : CarrelRegs) (i : BitVec 5) (v : Bool) : (r.setP i v).pc = r.pc := by
  unfold CarrelRegs.setP; split
  · rfl
  · split <;> rfl
@[simp] theorem CarrelRegs.setP_g (r : CarrelRegs) (i : BitVec 5) (v : Bool) : (r.setP i v).g = r.g := by
  unfold CarrelRegs.setP; split
  · rfl
  · split <;> rfl
@[simp] theorem CarrelRegs.setA_pc (r : CarrelRegs) (i : Nat) (v : BitVec 48) : (r.setA i v).pc = r.pc := by
  unfold CarrelRegs.setA; split <;> rfl

/-- A write of one g register: that register, unless it is g0, and no other. -/
theorem CarrelRegs.getG_setG (r : CarrelRegs) (i j : BitVec 5) (v : Word) :
    (r.setG i v).getG j = if j = i ∧ i ≠ 0 then v else r.getG j := by
  unfold CarrelRegs.setG
  by_cases hi : i = 0
  · simp [hi]
  · rw [if_neg hi]
    unfold CarrelRegs.getG
    by_cases hj : j = 0
    · subst hj
      have : ¬((0 : BitVec 5) = i ∧ i ≠ 0) := fun h => hi h.1.symm
      rw [if_neg this]; rfl
    · rw [if_neg hj, if_neg hj]
      by_cases hji : j = i
      · subst hji; rw [if_pos ⟨rfl, hi⟩]; simp
      · have : i.toNat ≠ j.toNat := fun h => hji (BitVec.eq_of_toNat_eq h.symm)
        rw [if_neg (fun e => hji e.1)]; simp [this]

/-- g0 reads zero. -/
@[simp] theorem CarrelRegs.getG_zero (r : CarrelRegs) : r.getG 0 = 0 := rfl
/-- p0 reads one. -/
@[simp] theorem CarrelRegs.getP_zero (r : CarrelRegs) : r.getP 0 = true := rfl

/-- A write of one predicate: that predicate, unless it is p0, and no other. -/
theorem CarrelRegs.getP_setP_other (r : CarrelRegs) (i j : BitVec 5) (v : Bool) (h : j ≠ i) :
    (r.setP i v).getP j = r.getP j := by
  unfold CarrelRegs.setP
  split
  · rfl
  · split
    · unfold CarrelRegs.getP
      have : i.toNat ≠ j.toNat := fun e => h (BitVec.eq_of_toNat_eq e.symm)
      split
      · rfl
      · split
        · simp [this]
        · rfl
    · rfl

/-! ### Issue -/

/-- Where the carrel issues and the form is legal, the instruction's own body decides. -/
theorem Carrel.issue_of_issues {s : State} {c : CarrelId} {op : BitVec 6} {uses : List (BitVec 5)}
    (h : s.Issues c op uses) {legal : Bool} (hl : legal = true) (b : CoreResult) :
    (s.carrel c).issue op legal uses b = b := by
  obtain ⟨-, h2, h3, h4⟩ := h
  have e1 : ((s.carrel c).regs.pg.valid && (s.carrel c).regs.pg.opcode != op) = false := by
    cases hv : (s.carrel c).regs.pg.valid
    · rfl
    · simp [h2 hv]
  have e2 : (uses.any (s.carrel c).regPending) = false := by
    simp only [List.any_eq_false]; intro i hi; simp [h4 i hi]
  unfold Carrel.issue
  rw [e1, e2, hl, h3]
  rfl

/-- Where it issues and the form is not legal, ILLEGAL. -/
theorem Carrel.issue_illegal {s : State} {c : CarrelId} {op : BitVec 6} {uses : List (BitVec 5)}
    (h : s.Issues c op uses) {legal : Bool} (hl : legal = false) (b : CoreResult) :
    (s.carrel c).issue op legal uses b = .fault (s.carrel c) faultIllegal {} := by
  have e1 : ((s.carrel c).regs.pg.valid && (s.carrel c).regs.pg.opcode != op) = false := by
    cases hv : (s.carrel c).regs.pg.valid
    · rfl
    · simp [h.2.1 hv]
  unfold Carrel.issue
  rw [e1, hl]; rfl

/-- A valid pg of another opcode: PG_MISMATCH, whatever else is wrong. -/
theorem Carrel.issue_mismatch {k : Carrel} {op : BitVec 6} (hv : k.regs.pg.valid = true) (ho : k.regs.pg.opcode ≠ op)
    (legal : Bool) (uses : List (BitVec 5)) (b : CoreResult) :
    k.issue op legal uses b = .fault k faultPgMismatch {} := by
  unfold Carrel.issue
  simp [hv, ho]

/-- The outcomes of an issue: a fault of its own order, a wait, or the body's. -/
theorem Carrel.issue_cases (k : Carrel) (op : BitVec 6) (legal : Bool) (uses : List (BitVec 5)) (b : CoreResult) :
    k.issue op legal uses b = .fault k faultPgMismatch {} ∨ k.issue op legal uses b = .fault k faultIllegal {} ∨
    k.issue op legal uses b = .wait ∨ (legal = true ∧ k.issue op legal uses b = b) := by
  unfold Carrel.issue
  cases legal with
  | false =>
    split
    · exact .inl rfl
    · exact .inr (.inl rfl)
  | true =>
    split
    · exact .inl rfl
    · simp only [Bool.not_true, Bool.false_eq_true, if_false]
      split
      · split
        · exact .inr (.inr (.inl rfl))
        · exact .inr (.inr (.inr ⟨trivial, rfl⟩))
      · split
        · exact .inr (.inr (.inl rfl))
        · exact .inr (.inr (.inr ⟨trivial, rfl⟩))

/-! ### What an issue does to the state -/

theorem State.core_of_ready {s : State} {c : CarrelId} (h : s.coreReady c = true) (b : Carrel → CoreResult) :
    s.core c b = .next (s.applyCore c (b (s.carrel c))) := by simp [State.core, h]

theorem State.core_of_not_ready {s : State} {c : CarrelId} (h : s.coreReady c = false) (b : Carrel → CoreResult) :
    s.core c b = .next s := by simp [State.core, h]

/-- No retry counts nothing. -/
@[simp] theorem State.countBond_zero (s : State) (f : FolioId) : s.countBond f 0 = s := rfl

@[simp] theorem State.coreEffect_none (s : State) (c : CarrelId) : s.coreEffect c {} = s := by
  simp [State.coreEffect]

@[simp] theorem State.applyCore_wait (s : State) (c : CarrelId) : s.applyCore c .wait = s := rfl

@[simp] theorem State.applyCore_next (s : State) (c : CarrelId) (k : Carrel) :
    s.applyCore c (.next k {}) = s.setCarrel c k := by simp [State.applyCore]

/-- A fault that no memory error made stops the carrel and leaves the rest. -/
theorem State.applyCore_fault {s : State} {c : CarrelId} {k : Carrel} {code : Byte} (h7 : code ≠ faultSramUe)
    (h8 : code ≠ faultStacksUe) : s.applyCore c (.fault k code {}) = s.setCarrel c (k.raise code) := by
  simp [State.applyCore, State.countFault, h7, h8]

/-- The instruction whose word is fetched runs where the core may issue. -/
theorem State.instr_of_fetched {s : State} {c : CarrelId} {w : Word} (hr : s.coreReady c = true)
    (hw : (s.carrel c).ir = some w) (b : Carrel → CoreResult) :
    s.instr c w b = .next (s.applyCore c (b (s.carrel c)).issued) := by simp [State.instr, hr, hw]

/-- No other instruction does anything. -/
theorem State.instr_of_not_fetched {s : State} {c : CarrelId} {w : Word} (hw : (s.carrel c).ir ≠ some w)
    (b : Carrel → CoreResult) : s.instr c w b = .next s := by simp [State.instr, hw]

/-- All that an instruction can do: nothing, where the core may not issue or another word is fetched, or its body's
result on the carrel. -/
theorem State.instr_cases (s : State) (c : CarrelId) (w : Word) (b : Carrel → CoreResult) :
    s.instr c w b = .next s ∨
    (s.coreReady c = true ∧ (s.carrel c).ir = some w ∧
      s.instr c w b = .next (s.applyCore c (b (s.carrel c)).issued)) := by
  unfold State.instr
  split
  · rename_i h
    simp only [Bool.and_eq_true, beq_iff_eq] at h
    exact .inr ⟨h.1, h.2, rfl⟩
  · exact .inl rfl

/-- Retiring changes the registers, moves pc on and lets the next word be fetched. -/
theorem State.applyCore_retire {s : State} {c : CarrelId} {f : CarrelRegs → CarrelRegs}
    (hl : (s.carrel c).long = none) (hp : (f (s.carrel c).regs).pc = (s.carrel c).regs.pc) :
    s.applyCore c ((s.carrel c).retire f).issued = s.setCarrel c
      { s.carrel c with regs := { f (s.carrel c).regs with pc := (s.carrel c).regs.pc + 4 }, ir := none } := by
  simp [State.applyCore, Carrel.retire, CoreResult.issued, CarrelRegs.advance, hp, hl]

/-- An instruction that retires: its next state. -/
theorem State.retires_of_instr {s : State} {c : CarrelId} {op : BitVec 6} {uses : List (BitVec 5)} {w : Word}
    (h : s.Issues c op uses) (hw : (s.carrel c).ir = some w) {legal : Bool} (hl : legal = true)
    {f : CarrelRegs → CarrelRegs} (hp : (f (s.carrel c).regs).pc = (s.carrel c).regs.pc) :
    s.instr c w (fun k => k.issue op legal uses (k.retire f)) = .next (s.setCarrel c
      { s.carrel c with regs := { f (s.carrel c).regs with pc := (s.carrel c).regs.pc + 4 }, ir := none }) := by
  rw [State.instr_of_fetched h.1 hw, Carrel.issue_of_issues h hl, State.applyCore_retire h.2.2.1 hp]

/-- An instruction of an illegal form raises ILLEGAL. -/
theorem State.illegal_of_instr {s : State} {c : CarrelId} {op : BitVec 6} {uses : List (BitVec 5)} {w : Word}
    (h : s.Issues c op uses) (hw : (s.carrel c).ir = some w) {legal : Bool} (hl : legal = false)
    (b : Carrel → CoreResult) :
    s.instr c w (fun k => k.issue op legal uses (b k)) = .next (s.setCarrel c ((s.carrel c).raise faultIllegal)) := by
  rw [State.instr_of_fetched h.1 hw, Carrel.issue_illegal h hl]
  exact congrArg _ (State.applyCore_fault (by decide) (by decide))

/-- An instruction under a valid pg of another opcode raises PG_MISMATCH. -/
theorem State.mismatch_of_instr {s : State} {c : CarrelId} {op : BitVec 6} {w : Word} (hr : s.coreReady c = true)
    (hw : (s.carrel c).ir = some w) (hv : (s.carrel c).regs.pg.valid = true) (ho : (s.carrel c).regs.pg.opcode ≠ op)
    (legal : Carrel → Bool) (uses : Carrel → List (BitVec 5)) (b : Carrel → CoreResult) :
    s.instr c w (fun k => k.issue op (legal k) (uses k) (b k)) =
      .next (s.setCarrel c ((s.carrel c).raise faultPgMismatch)) := by
  rw [State.instr_of_fetched hr hw, Carrel.issue_mismatch hv ho]
  exact congrArg _ (State.applyCore_fault (by decide) (by decide))

/-! ### The stacks port -/

/-- The carrel has its turn at its port: it is free, or the last turn was a remote request's. -/
theorem State.ownTurn_of_turn {s : State} {c : CarrelId} {k : Carrel} (h : k.cellTurn = true ∨ s.remoteWaits c = false)
    (b : CoreResult) : s.ownTurn c k b = b.tookPort := by
  rcases h with h | h <;> simp [State.ownTurn, h]

end Sys2Proof.Machine
end

