-- ==== Sys2Proof/WellFormed.lean ====
section
/-! DEFINITION. WellFormed.lean: which terms of Instr are commands of the block's interface. A term that fails
a check names no transaction the spec describes (a packet whose LEN disagrees with its data, a book-drop write
outside its window); the machine is total on such terms too, and no statement rests on one. -/

namespace Sys2Proof

/-- LEN counts the data flits and is 0, 1, 2 or 5 (R214). -/
def Packet.wf (p : Packet) : Bool :=
  p.len.toNat == p.data.length && [0, 1, 2, 5].contains p.data.length

/-- A codeword carries 39 words and a CTYPE of 0 to 2 (Table 16.1). -/
def Codeword.wf (cw : Codeword) : Bool := cw.words.length == 39 && decide (cw.ctype.toNat ≤ 2)

/-- A vote names a physical carrel of the folio (R33). -/
def VoteRow.wf (v : VoteRow) : Bool := decide (v.pr < 68 ∧ v.pc < 72)

/-- A host access carries 1 to 4,096 bytes. -/
def HostAccess.wf (h : HostAccess) : Bool := decide (1 ≤ h.size ∧ h.size ≤ 4096)

/-- The checks, row by row; a row with no check of its own is well-formed whatever its operands. -/
def Instr.wellFormed (i : Instr) : Bool :=
  match i with
  | .packetHop _ _ p _ | .read p _ | .write p _ | .resv p _ | .cond p _ | .data p | .ack p | .ctrl p _ _ _ | .abort p => p.wf
  | .codeword _ cw => cw.wf
  | .inventoryEnd rep => rep.votes.all VoteRow.wf
  | .bookDropWrite _ off bs => decide (1 ≤ bs.length ∧ off + bs.length ≤ 4096)
  | .hostReadCompletion (.descriptor _) ok bs => !ok || bs.length == 64
  | .latencyStage _ rtts => rtts.length == 64
  | .linkUp _ speed _ width => decide (speed ≠ 0) && [4, 8, 16].contains width.toNat
  | .registerWrite h _ => h.wf
  | .rcRead h => h.wf
  | _ => true

end Sys2Proof
end

