-- ==== Sys2Proof/Tests/Slice0.lean ====
section
/-! SUPPORT. Tests/Slice0.lean: the ill-formed terms that WellFormed refuses; words and tables of the spec written out;
and, for every obligation with hypotheses, a concrete state and operands that meet those of each clause (a theorem
`witness_<what>` has one conjunct a clause). -/

namespace Sys2Proof.Tests

open Sys2Proof Sys2Proof.Machine

/-! ### Small states -/

/-- The wafer in service: READY, its reference active, every folio present. -/
def ready : State :=
  { State.reset with
    pwr := { powered := true }, cur := { stage := .ready }, inv := { present := BitVec.allOnes 64 },
    clk := { activeValid := true, pllsRun := true, ready := 1, present := 1 } }
/-- The carrel in the corner. -/
def c0 : CarrelId := carrelAt 0 0
/-- A carrel of the corner that runs. -/
def one (k : Carrel) : State := ready.setCarrel c0 { k with run := .running }
/-- A bay of one carrel. -/
def bay1 : BayEntry :=
  { bay := 0, x0 := 0, y0 := 0, w := 1, h := 1, piecewise := false, spans := false, reserve := 0, maxTrim := 4, payDx := 0,
    payDy := 0, egrDx := 0, egrDy := 0, catBay := 7, depth := 0 }
/-- Its codex, with a window on the stacks of the corner and of the carrel beside it. -/
def codex1 : Codex :=
  { bays := [bay1], readers := [{ reader := 0, bay := 0, classes := 7 }],
    windows := [{ bay := 0, space := 1, read := true, write := true, wslot := 0, x0 := 0, y0 := 0, w := 2, h := 1, base := 0,
                  len := 0x500000 }] }
/-- The wafer in service with that codex. -/
def served : State := { ready with cdx := { codex := some codex1 } }
/-- The call number of the stacks of a carrel at x, in g1 (low) and g2... as the pair of register 2. -/
def regsAt (x off : Nat) : CarrelRegs :=
  let call := (stacksCall (carrelAt x 0) off).toNat
  { g := (Vector.replicate 32 (0 : Word)).set 2 (BitVec.ofNat 32 call) |>.set 3 (BitVec.ofNat 32 (call / 2 ^ 32)) }
/-- A running carrel of the bay with an instruction fetched, its pair g2, g3 at a stacks byte. -/
def bayed (i : Instr) (x off : Nat) (held : Option Reservation) : State :=
  served.setCarrel c0 { run := .running, bay := some 0, regs := regsAt x off, reserved := held, ir := some (instrWord i) }

/-- A carrel without pg, long instruction and loads issues anything. -/
theorem issues (s : State) (op : BitVec 6) (uses : List (BitVec 5)) (c : CarrelId) (h1 : s.coreReady c = true)
    (h2 : (s.carrel c).regs.pg.valid = false) (h3 : (s.carrel c).long = none) (h4 : (s.carrel c).loads = []) :
    s.Issues c op uses := by
  refine ⟨h1, ?_, ?_, ?_⟩
  · simp [h2]
  · simp [h3]
  · intro i _; simp [Carrel.regPending, h4]

theorem one_issues (op : BitVec 6) (uses : List (BitVec 5)) : (one {}).Issues c0 op uses :=
  issues _ op uses c0 (by decide) (by decide) (by decide) (by decide)
/-- A carrel whose ir holds an instruction's word issues that instruction, whatever its registers and SRAM hold: both
hypotheses of every statement about one. -/
theorem fetched_issues (i : Instr) (op : BitVec 6) (uses : List (BitVec 5)) (g : Vector Word 32) (m : Memory) :
    (one { ir := some (instrWord i), regs := { g := g }, sram := m }).Issues c0 op uses ∧
    (one { ir := some (instrWord i), regs := { g := g }, sram := m }).Fetched c0 i :=
  ⟨issues _ op uses c0 (by simp [one, State.coreReady, State.fabricRuns, State.frozen, ready, State.reset]) (by simp [one])
    (by simp [one]) (by simp [one]), by simp [one, State.Fetched]⟩

/-! ### Well-formedness: a term that each check refuses -/

theorem test_wf_packet : (Instr.read { Packet.blank with len := 1 } .clean).wellFormed = false := by decide
theorem test_wf_codeword (cw : Codeword) (h : cw.words = []) (l : LinkId) : (Instr.codeword l cw).wellFormed = false := by
  simp [Instr.wellFormed, Codeword.wf, h]
theorem test_wf_vote :
    (Instr.inventoryEnd ⟨[⟨0, 68, 0, true, true, true, true, true⟩], [], [], [], []⟩).wellFormed = false := by decide
theorem test_wf_drop : (Instr.bookDropWrite 0 4095 [0, 0]).wellFormed = false := by decide
theorem test_wf_descriptor : (Instr.hostReadCompletion (.descriptor 0) true [0]).wellFormed = false := by decide
theorem test_wf_latency : (Instr.latencyStage 0 [1]).wellFormed = false := by decide
theorem test_wf_linkUp : (Instr.linkUp 0 1 false 5).wellFormed = false := by decide
theorem test_wf_host : (Instr.rcRead ⟨0, false, 0, 0⟩).wellFormed = false := by decide

/-! ### Words and tables of the spec (R162 to R165, Table 7.2) -/

/-- FENCE with a field set, BMOVE's modes, ADD, FENCE and RDSR: legal words. -/
theorem test_words_legal :
    [0xA4042800, 0xB9242980, 0x10000000, 0x80000000, 0xC0000000].all (fun w => wordLegal (BitVec.ofNat 32 w)) = true := by
  decide
theorem test_words_illegal :
    [0x80000001, 0x0C000000, 0xA4042803, 0x09000000, 0xC0000006].any (fun w => wordLegal (BitVec.ofNat 32 w)) = false := by
  decide
/-- One instruction of each format, its word put together by hand from Tables 7.1 to 7.4. -/
theorem test_instruction_words :
    instrWord (.add c0 1 2 3) = 0x00221800 ∧ instrWord (.beq c0 1 2 0xFFFF) = 0x4022FFFF ∧
    instrWord (.ldl c0 4 2 false 2 8 .clean) = 0x60822008 ∧ instrWord (.jal c0 31 1) = 0x53E00001 ∧
    instrWord (.twalk c0 0 1 2 3 1 LongEnv.quiet) = 0xB00110C1 := by decide
/-- No row of the table gives bits. -/
theorem test_no_word_spells (n w : Nat) : decodeTableWord n w = none ∧ ready.withFetchWord n w = ready := by
  constructor <;> rfl
/-- 1.0 + 1.0 = 2.0, and 2^24 + 1 rounds to even. -/
theorem test_fadd : fpAdd 0x3F800000 0x3F800000 = 0x40000000 ∧ fpAdd 0x4B800000 0x3F800000 = 0x4B800000 := by decide
/-- One step of ADD through the queue: g1 = g2 + g2. -/
theorem test_step_add :
    (match step { (one { ir := some (instrWord (.add c0 1 2 2)), regs := { g := (Vector.replicate 32 (0 : Word)).set 2 5 } })
                         with pending := [.add c0 1 2 2] } with
     | .next t => ((t.carrel c0).regs.getG 1, (t.carrel c0).regs.pc, t.pending)
     | _ => (0, 0, [])) = (10, 4, []) := by decide

/-! ### Witnesses: carrel instructions -/

/-- A queue with a command at its front. -/
theorem witness_step : ({ ready with pending := [.ident, .power] } : State).pending = .ident :: [.power] := rfl
/-- Every group's issue, for the register, branch, system and matrix statements, with a word of each group fetched. -/
theorem witness_issues :
    (one {}).Issues c0 0x00 [1, 2, 3] ∧ (one {}).Issues c0 0x01 [1, 2, 0] ∧ (one {}).Issues c0 0x02 [2, 3] ∧
    (one {}).Issues c0 0x07 [1, 2] ∧ (one {}).Issues c0 0x10 [1, 2] ∧ (one {}).Issues c0 0x15 [1, 2] ∧
    (one {}).Issues c0 0x20 [] ∧ (one {}).Issues c0 0x24 [1] ∧ (one {}).Issues c0 0x25 [1] ∧
    (one {}).Issues c0 0x28 [1] ∧ (one {}).Issues c0 0x2A [1, 2] ∧ (one {}).Issues c0 0x30 [1] :=
  ⟨one_issues _ _, one_issues _ _, one_issues _ _, one_issues _ _, one_issues _ _, one_issues _ _, one_issues _ _,
   one_issues _ _, one_issues _ _, one_issues _ _, one_issues _ _, one_issues _ _⟩
/-- Boundary values of the operand fields: p7 and p8, shift 31 and 32, LUI 65535 and 65536, a_15 and 16. -/
theorem witness_fields :
    (7 : BitVec 5).toNat < 8 ∧ 8 ≤ (8 : BitVec 5).toNat ∧ (31 : BitVec 16).toNat < 32 ∧ ¬(32 : BitVec 16).toNat < 32 ∧
    (65535 : BitVec 21).toNat < 65536 ∧ ¬(65536 : BitVec 21).toNat < 65536 ∧ (15 : BitVec 5).toNat < 16 ∧
    16 ≤ (16 : BitVec 5).toNat := by decide
/-- A NaN and two subnormal operands. -/
theorem witness_float_special :
    (natBits (0x7FC00000 : Word).toNat 23 8 = 255 ∧ natBits (0x7FC00000 : Word).toNat 0 23 ≠ 0) ∧
    natBits (1 : Word).toNat 23 8 = 0 ∧ natBits (0x80000001 : Word).toNat 23 8 = 0 := by decide
/-- Fetches: past the end, at the last word, a pg of another opcode and of the word's, a legal and an illegal word. -/
theorem witness_fetch :
    (one {}).coreReady c0 = true ∧
    (let a (n : Nat) := ((one { regs := { pc := BitVec.ofNat 32 n } }).carrel c0).regs.pc.toNat
     0xC000 < a 0xC000 + 4 ∧ a 0xBFFC + 4 ≤ 0xC000) ∧
    (let k (op : BitVec 6) := (one { regs := { pg := { opcode := op, valid := true } } }).carrel c0
     let w : Word := BitVec.ofNat 32 (leNat ((k 1).sram.read Memory.blank 0 4))
     (k 1).regs.pg.valid = true ∧ natBits w.toNat 26 6 ≠ (k 1).regs.pg.opcode.toNat ∧
     natBits w.toNat 26 6 = (k 0).regs.pg.opcode.toNat ∧ wordLegal w = true) ∧
    (let k := (one { sram := [(0, 1), (3, 0x80)] }).carrel c0
     k.regs.pg.valid = false ∧ wordLegal (BitVec.ofNat 32 (leNat (k.sram.read Memory.blank 0 4))) = false) := by decide
/-- A carrel whose pg holds TWALK, and one in a pure pass, each with an instruction fetched that must raise. -/
theorem witness_fault_order :
    (let s := one { ir := some (instrWord (.mul c0 1 2 3)), regs := { pg := { opcode := 0x2C, valid := true } } }
     s.coreReady c0 = true ∧ (s.carrel c0).regs.pg.valid = true ∧ (s.carrel c0).regs.pg.opcode ≠ 0x00 ∧
     s.Fetched c0 (.mul c0 1 2 3)) ∧
    (let s (i : Instr) := one { ir := some (instrWord i), regs := { st := { pure_ := true } } }
     ((s .ident).carrel c0).regs.st.pure_ = true ∧
     (s (.beatrd c0 1 0 0 0)).Issues c0 0x25 [1] ∧ (s (.beatrd c0 1 0 0 0)).Fetched c0 (.beatrd c0 1 0 0 0) ∧
     (s (.draw c0 1 0 0)).Issues c0 0x30 [1] ∧ (s (.draw c0 1 0 0)).Fetched c0 (.draw c0 1 0 0) ∧
     2 ≤ (2 : BitVec 11).toNat % 4 ∧
     (s (.stcond c0 1 2 4 2 .clean)).Issues c0 0x1F (1 :: 2 :: (2 + 1) :: sizeRegs 4 (condSize 2)) ∧
     (s (.stcond c0 1 2 4 2 .clean)).Fetched c0 (.stcond c0 1 2 4 2 .clean)) :=
  ⟨⟨by decide, by decide, by decide, rfl⟩, by decide,
   issues _ _ _ _ (by decide) (by decide) (by decide) (by decide), rfl,
   issues _ _ _ _ (by decide) (by decide) (by decide) (by decide), rfl, by decide,
   issues _ _ _ _ (by decide) (by decide) (by decide) (by decide), rfl⟩
/-- Local accesses: in range and aligned at the last word, misaligned, out of range, an odd pair, size 7, a mark. -/
theorem witness_local :
    (let s (i : Instr) := one { ir := some (instrWord i), regs := { g := (Vector.replicate 32 (0 : Word)).set 2 0xBFFC } }
     let k := (s .ident).carrel c0
     let a := (k.regs.getG 2 + (0 : BitVec 12).signExtend 32).toNat
     a + sizeBytes 2 ≤ 0xC000 ∧ a % sizeBytes 2 = 0 ∧ k.acquiring = false ∧ k.ownGranuleBusy c0 a (sizeBytes 2) = false ∧
     0xC000 < (k.regs.getG 2 + (4 : BitVec 12).signExtend 32).toNat + sizeBytes 2 ∧
     (k.regs.getG 2 + (1 : BitVec 12).signExtend 32).toNat % sizeBytes 2 ≠ 0 ∧ k.regs.st.piecewise = false ∧
     (s (.ldl c0 1 2 false 2 0 .clean)).Issues c0 0x18 (2 :: sizeRegs 1 2) ∧
     (s (.ldl c0 1 2 false 2 0 .clean)).Fetched c0 (.ldl c0 1 2 false 2 0 .clean) ∧
     (s (.stl c0 1 2 false 2 0 .clean)).Issues c0 0x19 (2 :: sizeRegs 1 2) ∧
     (s (.stl c0 1 2 false 2 0 .clean)).Fetched c0 (.stl c0 1 2 false 2 0 .clean)) ∧
    sizeRegOk 1 2 = true ∧ sizeRegOk 1 3 = false :=
  ⟨⟨by decide, by decide, by decide, by decide, by decide, by decide, by decide,
    issues _ _ _ _ (by decide) (by decide) (by decide) (by decide), rfl,
    issues _ _ _ _ (by decide) (by decide) (by decide) (by decide), rfl⟩, by decide, by decide⟩
/-- The pieces of an aligned word of the corner's own stacks, and of the carrel beside it. -/
def pieceAt (x off : Nat) : List (BitVec 48 × Nat × Nat) := [(stacksCall (carrelAt x 0) off, 4, 0)]
/-- A READ of the corner's stacks that waits at its port. -/
def readsC0 : Transit := ⟨.endpoint, { Packet.blank with type := 1, call := stacksCall c0 64, size := 2 }, none⟩
/-- Own-cell loads, reserved loads and stores: all hypotheses at once, at the carrel's turn and not at it. -/
theorem witness_own_cell :
    (let s (i : Instr) := bayed i 0 64 none
     let lds : Instr := .lds c0 4 2 false 2 0 .clean
     let st2 : Instr := .st2 c0 4 2 true 6 0 .clean
     let k := (s lds).carrel c0
     (∀ q ∈ pieceAt 0 64, (s lds).ownCell c0 q = true) ∧ (s lds).Reaches c0 2 (pieceAt 0 64) false ∧
     (s lds).Reaches c0 2 (pieceAt 0 64) true ∧
     callPieces k.regs.st.piecewise (k.regs.callNumber 2 0) (sizeBytes 2) = some (pieceAt 0 64) ∧
     k.loadCount + 1 ≤ 8 ∧ k.stores.length + 1 ≤ 16 ∧ (k.loads = [] ∧ k.stores = []) ∧ k.acquiring = false ∧
     (s lds).Issues c0 0x1A (2 :: (2 + 1) :: sizeRegs 4 2) ∧ (s lds).Fetched c0 lds ∧
     (s st2).Issues c0 0x1D (2 :: (2 + 1) :: sizeRegs 4 6) ∧ (s st2).Fetched c0 st2 ∧
     k.cellTurn = true ∧
     (let u : State := { (s lds).modCarrel c0 (fun k => { k with cellTurn := false }) with net := [readsC0] }
      (u.carrel c0).cellTurn = false ∧ u.remoteWaits c0 = true)) := by
  refine ⟨by decide, ⟨by decide, by decide⟩, ⟨by decide, by decide⟩, by decide, by decide, by decide, by decide, by decide,
    issues _ _ _ _ (by decide) (by decide) (by decide) (by decide), rfl,
    issues _ _ _ _ (by decide) (by decide) (by decide) (by decide), rfl, by decide, by decide⟩
/-- The same access to the carrel beside it. -/
theorem witness_remote :
    (let i : Instr := .ldres c0 4 2 false 2 0 .clean
     let s := bayed i 1 64 none
     let k := s.carrel c0
     (pieceAt 1 64).all (s.ownCell c0) = false ∧ s.Reaches c0 2 (pieceAt 1 64) false ∧ s.Reaches c0 2 (pieceAt 1 64) true ∧
     callPieces false (k.regs.callNumber 2 0) (sizeBytes 2) = some (pieceAt 1 64) ∧ k.loadCount + 1 ≤ 8 ∧
     s.Issues c0 0x1E (2 :: (2 + 1) :: sizeRegs 4 2) ∧ s.Fetched c0 i) := by
  refine ⟨by decide, ⟨by decide, by decide⟩, ⟨by decide, by decide⟩, by decide, by decide,
    issues _ _ _ _ (by decide) (by decide) (by decide) (by decide), rfl⟩
/-- Conditional stores: without the reservation, with it at home with and without the entry, and elsewhere. -/
theorem witness_cond :
    (let i : Instr := .stcond c0 1 2 4 2 .clean
     let call (x : Nat) := stacksCall (carrelAt x 0) 64
     let s (x : Nat) := bayed i x 64 (some ⟨(call x).toNat / 64, 2⟩)
     let own := (s 0).modHome (2 ^ 20 + c0.key) (fun h =>
       { h with entries := [⟨1, c0.requester (s 0).ownWafer, ((s 0).carrel c0).ticket⟩] })
     (((s 0).carrel c0).regs.callNumber 2 0 = call 0 ∧ ((s 1).carrel c0).regs.callNumber 2 0 = call 1 ∧
      (call 0).toNat % 4 = 0 ∧ condSize 2 = 2 ∧
      ((bayed i 0 64 none).carrel c0).reserved ≠ some ⟨(call 0).toNat / 64, 2⟩ ∧
      (s 0).ownCell c0 (call 0, 4, 0) = true ∧ (s 1).ownCell c0 (call 1, 4, 0) = false ∧
      ((s 0).carrel c0).cellTurn = true ∧
      (own.home (2 ^ 20 + c0.key)).condOk 1 (c0.requester own.ownWafer) (own.carrel c0).ticket = true ∧
      ((s 0).home (2 ^ 20 + c0.key)).condOk 1 (c0.requester (s 0).ownWafer) ((s 0).carrel c0).ticket = false) ∧
     (s 0).Issues c0 0x1F (1 :: 2 :: (2 + 1) :: sizeRegs 4 2) ∧ (s 0).Fetched c0 i ∧
     (s 0).Reaches c0 2 [(call 0, 4, 0)] true) :=
  ⟨by decide, issues _ _ _ _ (by decide) (by decide) (by decide) (by decide), rfl, by decide, by decide⟩
/-- A load that is pending on g1, an outstanding store, and beats before, at and after the one awaited. -/
theorem witness_wait :
    (let s := one { loads := [{ pieces := [⟨0, 0, 4, 0⟩], buf := [0, 0, 0, 0], reg := 1, size := 2, isCond := false, acquire := false, space := 1 }] }
     s.coreReady c0 = true ∧ (s.carrel c0).regPending 1 = true ∧ (s.carrel c0).loads ≠ []) ∧
    (let k : Carrel := { regs := { switch := { w := 10 ^ 6 } } }
     k.beat < 10 ^ 6 ∧ 0 < k.beat) ∧ ((one {}).carrel c0).beat = 0 := by decide
/-- Long instructions with nothing that interrupts them: no pg, aligned operands, ranges that end at 0xC000, one delta
entry, equal groups. -/
theorem witness_long :
    (let k := (one { regs := { g := (Vector.replicate 32 (0 : Word)).set 1 0xBFF0 |>.set 2 1 } }).carrel c0
     k.long = none ∧ k.regs.pg.valid = false ∧ k.unitHeld c0 = false ∧ (k.regs.getG 1).toNat % 16 = 0 ∧
     (k.regs.getG 1).toNat + 16 * (k.regs.getG 2).toNat ≤ 0xC000 ∧
     (let e (i : Nat) : Nat := leNat (k.sram.read Memory.blank (4 + 4 * i) 4)
      ∀ i < (k.regs.getG 2).toNat, 0xBFF0 + 16 * (e i % 65536) + 16 ≤ 0xC000) ∧
     twalkMemory k.sram 0 0 false 0 = some k.sram ∧
     diffMemory k.sram 0 0 0 1 0 = some (k.sram, 0) ∧ diffMemory k.sram 0 64 256 4 1 = some (k.sram, 0)) ∧
    (let k : Carrel := { loads := [⟨[⟨0, 0, 4, 0⟩], [0, 0, 0, 0], 1, 2, false, true, 1⟩] }
     k.unitHeld c0 = true) := by decide
/-- BMOVE of the first granule of the corner's stacks, in a window that it may read and write. -/
theorem witness_bmove :
    (let i : Instr := .bmove c0 0 5 6 5 0 LongEnv.quiet
     let s := (bayed i 0 64 none).modCarrel c0 (fun k => { k with regs := { k.regs with g := k.regs.g.set 6 1 } })
     let k := s.carrel c0
     (k.unitHeld c0 = false ∧ k.regs.pg.valid = false ∧ k.cellTurn = true ∧ (k.regs.getG 5).toNat % 64 = 0 ∧
      (k.regs.getG 6).toNat = 1 ∧ (k.regs.getG 5).toNat + 64 * (k.regs.getG 6).toNat ≤ 0xC000 ∧
      s.window c0 (stacksCall c0 0) 64 true ≠ .outside ∧ s.window c0 (stacksCall c0 0) 64 false ≠ .outside) ∧
     s.Issues c0 0x2D [5, 6, 5] ∧ s.Fetched c0 i) :=
  ⟨by decide, issues _ _ _ _ (by decide) (by decide) (by decide) (by decide), rfl⟩
/-- A tree of depth 1: FOREST at 64, FEATURES at 128, LEAVES at 192, feature 0 above the threshold 1. -/
theorem witness_tree :
    (let k := ((one { sram := [(0, 64), (4, 128), (8, 192), (64, 1), (76, 1), (84, 9), (128, 2)],
                      regs := { g := (Vector.replicate 32 (0 : Word)).set 2 1 } }).carrel c0)
     let d := treeDesc k.sram 0
     (k.regs.getG 2).toNat = 1 ∧ d.zero = 0 ∧ d.forest % 8 = 0 ∧ d.features % 4 = 0 ∧ d.leaves % 4 = 0 ∧ d.stride % 8 = 0 ∧
     d.forest + 24 ≤ 0xC000 ∧ d.leaves + 4 ≤ 0xC000 ∧ natBits (sramNat k.sram d.forest 8) 0 4 = 1 ∧
     sramNat k.sram (d.forest + 8) 8 = 2 ^ 32 ∧ d.features + 4 * (2 ^ 32 % 4096) + 4 ≤ 0xC000 ∧ natBits (2 ^ 32) 12 1 = 0 ∧
     sramNat k.sram d.features 4 = 2) := by decide
/-- A scalar instruction that completes. -/
theorem witness_scalar : ∃ t, exec (.add c0 1 2 3) (one { ir := some (instrWord (.add c0 1 2 3)) }) = .next t := ⟨_, rfl⟩

/-! ### Witnesses: input, references, clocks, power -/

/-- The input: off, in POWER, in service; each boundary of the four rows. -/
theorem witness_input :
    State.reset.pwr.powered = false ∧ ready.pwr.powered = true ∧ ready.cur.stage = .ready ∧ ready.act = .none ∧
    ready.cur.wait = .none ∧ ({ State.reset with pwr := { powered := true } } : State).cur.stage = .power := by decide
/-- References: port 1 becomes ready in POWER, in a dead freeze and in service; it is not present, and it is, neither
active nor armed; a folio PLL stops while no tick runs. -/
theorem witness_references :
    (let s : State := { State.reset with pwr := { powered := true } }
     s.pwr.powered = true ∧ bitOf s.clk.ready 1 = false ∧ s.act = .none ∧ s.cur.stage = .power ∧ s.cur.wait = .none ∧
     s.pwr.asserted = 0 ∧ bitOf s.clk.present 1 = false) ∧
    (let s : State := { ready with act := .dead 0 }
     s.act = .dead 0 ∧ (1 : PortId) ≠ 0 ∧ (1 : PortId).val ≠ s.clk.standby.toNat ∧ bitOf s.clk.ready 1 = false ∧
     s.tickRuns = false) ∧
    (ready.act = .none ∧ ready.cur.stage = .ready ∧ ready.cur.wait = .none ∧ bitOf ready.clk.ready 1 = false) ∧
    (let s : State := { ready with clk := { ready.clk with ready := 3, present := 3 } }
     let now : RefConditions := ⟨false, true, true⟩
     s.pwr.powered = true ∧ s.clk.active ≠ 1 ∧ s.clk.standby.toNat ≠ (1 : PortId).val ∧ (s.port 1).linkUp = false ∧
     (now.present = false ∨ now.inWindow = false ∨ now.locked = false) ∧ s.clk.activeValid = true ∧
     bitOf s.clk.present 1 = true) := by decide
/-- A failover with an armed standby, a dead freeze without one; on a frame edge and off it the end of a failover, of a
frequency change's relock and of a wake. -/
theorem witness_failover :
    (let s : State := { ready with clk := { ready.clk with ready := 3, standby := 1 } }
     let now : RefConditions := ⟨true, false, true⟩
     bitOf s.clk.ready 0 = true ∧ s.clk.activeValid = true ∧ s.clk.active = 0 ∧ s.act = .none ∧ s.cur.lost = false ∧
     s.cur.stage = .ready ∧ s.pwr.powered = true ∧ (now.present = false ∨ now.inWindow = false ∨ now.locked = false) ∧
     s.clk.standby.toNat = (1 : PortId).val ∧ (1 : PortId) ≠ 0 ∧ bitOf s.clk.ready 1 = true) ∧
    ready.clk.standby = 0xF ∧ ready.cur.taking = false ∧ ready.clk.tick.toNat % 16 = 0 ∧
    ({ ready with clk := { ready.clk with tick := 15 } } : State).clk.tick.toNat % 16 ≠ 0 ∧
    (let s : State := { ready with act := .failover false 0 0xF }
     s.act = .failover false 0 0xF ∧ s.clk.alertHeld = false ∧ s.clk.freqOwed = false ∧ s.clk.switchOwed = false) ∧
    ({ ready with act := .freqChange .relock } : State).act = .freqChange .relock ∧
    (let s := ready.modFolio 5 (fun x => { x with waking := true, clock := .dark })
     (s.folio 5).state ≠ .blocked ∧ (s.folio 5).waking = true ∧ s.act = .none ∧ s.cur.stage = .ready) ∧
    (let s := ready.modFolio 5 (fun x => { x with clock := .dark })
     (s.folio 5).waking = false ∧ (s.folio 5).clock = .dark) := by decide
/-- CLK.REF_SELECT and FREQ_REQ: each refusing row and each that acts. -/
theorem witness_ref_select :
    ({ ready with act := .alert } : State).act ≠ .none ∧
    (ready.act = .none ∧ ready.cur.lost = false ∧ ready.clk.activeValid = true ∧ bitOf ready.clk.ready 1 = false ∧
     bitOf ready.clk.ready 0 = true ∧ 8 ≤ (8 : BitVec 4).toNat ∧ (8 : BitVec 4) ≠ 0xF) ∧
    (let s : State := { served with clk := { served.clk with ready := 3 } }
     bitOf s.clk.ready 1 = true ∧ (1 : PortId) ≠ s.clk.active ∧ (∀ i ∈ s.bayIds, (s.bay i).isRunning = false) ∧
     (∃ i ∈ s.bayIds, (s.bay i).paused = false) ∧ bitOf s.clk.ready 0 = true ∧ (0 : PortId) = s.clk.active) ∧
    (let s := served.modBay 0 (fun x => { x with phase := .recalled })
     ∃ i ∈ s.bayIds, (s.bay i).phase = .running ∨ (s.bay i).phase = .recalled) ∧
    (let s := served.modBay 0 (fun x => { x with paused := true })
     (∀ i ∈ s.bayIds, (s.bay i).paused = true) ∧ s.clk.freq.toNat ≤ (3 : BitVec 2).toNat) ∧
    ({ ready with act := .freqChange .railsFirst } : State).act = .freqChange .railsFirst ∧
    ({ ready with act := .alert } : State).frozen = true := by decide
/-- Folios: one under a bay and one that is not; idle at and above DIM_IDLE; a bay wanted. -/
theorem witness_folios :
    served.writesDropped = false ∧ served.present 0 = true ∧ bitOf (1 : DWord) 0 = true ∧ served.folioUsed 0 = true ∧
    served.folioUsed 1 = false ∧ bitOf (2 : DWord) 1 = true ∧
    (let s := ready.modFolio 5 (fun x => { x with idle := 5000 })
     s.fabricRuns = true ∧ s.folioBusy 5 = false ∧ bitOf s.clk.dark 5 = false ∧ (s.folio 5).clock = .warm ∧
     s.clk.dimIdle ≠ 0 ∧ (s.folio 5).idle = s.clk.dimIdle.toNat ∧ s.clk.dimIdle.toNat < (s.folio 5).idle + 1) ∧
    ({ served with cands := [{ reader := 0 }] } : State).bayWanted 0 = true := by decide
/-- Rails: a frame while steps run, alone on its bus, and while they do not; a rail that has arrived; trims up, down and
refused, on a folio with power and one without; an allowance still to adopt. -/
theorem witness_rails :
    (let s : State := ({ ready with act := .alert } : State).modFolio 0 (fun x => { x with frame := some 780 })
     (s.folio 0).frame = some 780 ∧ s.stepsRun = false) ∧
    (let s := ready.modFolio 0 (fun x => { x with frame := some 780 })
     (s.folio 0).frame = some 780 ∧ s.stepsRun = true ∧ (s.folio 0).setpoint = (s.folio 0).railGoal ∧
     ∀ g, g ≠ 0 → folioX g = folioX 0 → (s.folio g).frame = none) ∧
    (let s := ready.modFolio 0 (fun x => { x with frame := some 780, railGoal := 760 })
     780 ≠ (s.folio 0).railGoal ∧ (s.folio 0).trimWait = false ∧ s.isBlocked 0 = false) ∧
    (let s := ready.modFolio 0 (fun x => { x with settled := false, trimTo := some 2 })
     (s.folio 0).frame = none ∧ (s.folio 0).setpoint = (s.folio 0).railGoal ∧ (s.folio 0).settled = false ∧
     s.stepsRun = true ∧ (s.folio 0).trimTo = some 2 ∧ (s.folio 0).trimNext = false ∧ s.act = .none ∧
     s.cur.wait = .none) ∧
    (let s := ({ ready with act := .alert } : State).modFolio 0 (fun x => { x with settled := false })
     (s.folio 0).frame = none ∧ (s.folio 0).setpoint = (s.folio 0).railGoal ∧ s.stepsRun = false) ∧
    4 < (5 : BitVec 3).toNat ∧ (4 : BitVec 3).toNat ≤ 4 ∧ ready.writesDropped = false ∧ ready.trimOpen = true ∧
    (ready.folio 0).trimTo = none ∧ ready.cdx.codex = none ∧ ready.isBlocked 0 = false ∧
    (ready.modFolio 0 (fun x => { x with state := .blocked })).isBlocked 0 = true ∧
    ((one { allowNext := some 2 }).allowAdopted 0) = false ∧
    (let s := ready.modFolio 0 (fun x => { x with req := 3, ceiling := 1 })
     ((s.folio 0).adopted.toNat < ((s.modFolio 0 (fun y => { y with ceiling := 4 })).trimTarget 0).toNat)) ∧
    (ready.modFolio 0 (fun y => { y with ceiling := 4 })).trimTarget 0 = (ready.folio 0).adopted := by decide
/-- Meter counts that read n mA on a binding of unit coefficients and no leakage, and the cap's telemetry of n mA at
800 mV on one stacks rail. -/
def unitCounts (n : Nat) : MeterCounts := (Vector.replicate 6 0).set 0 n
def unitMeter : Imprint := { coeffs := .replicate 6 1, leakage := 0 }
/-- Limits: averages at the limit, just below it, and below fifteen sixteenths of it, at fractions 16, 15 and 2; the cap
at the cap, above and below it, at ceilings 16 and 1. -/
theorem witness_limits :
    (let core (n : Nat) := windowOf ((ready.folio 0).reading (unitMeter.meter (unitCounts n)) :: (ready.folio 0).runs) 8
     core 330000 = (330000, 1) ∧ 0 < 1000 * ready.pwr.folioA.toNat ∧ 1000 * ready.pwr.folioA.toNat * 1 ≤ (core 330000).1 ∧
     (core 310000).1 < 1000 * ready.pwr.folioA.toNat * 1 ∧ 15 * (1000 * ready.pwr.folioA.toNat) * 1 ≤ 16 * (core 310000).1 ∧
     16 * (core 309000).1 < 15 * (1000 * ready.pwr.folioA.toNat) * 1) ∧
    (let stk (n : Nat) := windowOf [n] 8
     0 < 1000 * ready.pwr.stacksA.toNat ∧ 1000 * ready.pwr.stacksA.toNat * (stk 400000).2 ≤ (stk 400000).1 ∧
     (windowOf ready.pwr.stacksRuns[stacksRail 0] 8).1 < 1000 * ready.pwr.stacksA.toNat) ∧
    ready.fabricRuns = true ∧ (ready.folio 0).clock ≠ .dark ∧ (ready.folio 0).clock ≠ .off ∧ 1 < (ready.folio 0).railFrac ∧
    (let s := ready.modFolio 0 (fun x => { x with railFrac := 2, railRun := 7 })
     (s.folio 0).railFrac < 16 ∧ s.pwr.railWindow.toNat ≤ (s.folio 0).railRun + 1) ∧
    (let s := ready.modFolio 0 (fun x => { x with railFrac := 15 })
     (s.folio 0).railRun + 1 < s.pwr.railWindow.toNat) ∧
    (let power (mv : Nat) : Nat :=
       ((([(.stackMem 0, ⟨27500000, mv⟩)] : List (Rail × Telemetry)).foldl (fun t e => t.takeTelemetry e.1 e.2) ready).waferPower)
     let cap := 10000000 * ready.pwr.cap.toNat
     power 800 = cap ∧ 0 < (windowOf [power 800] 10000).1 ∧ cap * (windowOf [power 800] 10000).2 ≤ (windowOf [power 800] 10000).1 ∧
     (windowOf [power 799] 10000).1 < cap ∧ 16 * (windowOf [power 749] 10000).1 < 15 * cap) ∧
    (let s : State := { ready with pwr := { ready.pwr with ceiling := 1, ceilRun := 9999 } }
     s.pwr.ceiling < 16 ∧ s.pwr.capWindow.toNat * 1000 ≤ s.pwr.ceilRun + 1 ∧ s.pwr.capHold = false ∧ s.pwr.ceiling = 1) ∧
    (let s : State := { ready with pwr := { ready.pwr with ceiling := 1, capHold := true } }
     s.pwr.ceilRun + 1 < s.pwr.capWindow.toNat * 1000 ∧ s.pwr.capHold = true) := by decide +kernel
/-- Alerts: in service, held by a party and by a regulator; a freeze whose lines are clear, before and after the hold time
and with automatic resumption off; a start that waits for power; the management target with its clock. -/
theorem witness_alerts :
    (ready.pwr.powered = true ∧ ready.cur.stage = .ready ∧ ready.cur.wait = .none ∧ ready.act = .none ∧
     ready.mgmtClocked = true ∧ ready.pwr.asserted = 0) ∧
    (let s : State := { ready with pwr := { ready.pwr with lines := 1, asserted := 1, alertRails := [(0, .core 0)] } }
     bitOf s.pwr.lines 0 = true ∧ (0, Rail.core 0) ∈ s.pwr.alertRails ∧ alertLineOf (.core 0) 3 = 0) ∧
    (let s : State := { ready with act := .alert, ext := 1000001, pwr := { ready.pwr with clearSince := some 0 } }
     s.pwr.clearSince = some 0 ∧ s.alertWaits = true ∧ s.pwr.asserted = 0 ∧ s.pwr.hold ≠ 0xFFFF ∧
     0 + 100 * s.pwr.hold.toNat < s.ext ∧ 1000000 ≤ 0 + 100 * s.pwr.hold.toNat ∧ s.act = .alert ∧ s.cur.wait = .none) ∧
    (let s : State := { ready with act := .alert, pwr := { ready.pwr with clearSince := some 0, hold := 0xFFFF } }
     s.pwr.hold = 0xFFFF ∧ s.alertWaits = true) ∧
    (let s : State := { ready with cur := { stage := .power, wait := .alertPower } }
     s.cur.wait = .alertPower ∧ s.firstReady = some 0 ∧ s.alertWaits = true) ∧
    ({ ready with pwr := { ready.pwr with asserted := 1 } } : State).pwr.asserted ≠ 0 := by decide
/-- The coolant monitor at rest, a flow and an inlet at their alert thresholds and between them; every junction but one is
at most the one reported, and one is above it. -/
theorem witness_coolant :
    (ready.pwr.powered = true ∧ ready.pwr.coolant = 0 ∧ ready.pwr.lines = 0 ∧ ready.pwr.alertRails = [] ∧
     bitOf ready.pwr.coolant 2 = false ∧ ready.cur.stage = .ready ∧ ready.cur.wait = .none ∧ ready.act = .none) ∧
    (∀ g : FolioId, g ≠ 0 → (ready.folio g).junction ≤ 105) ∧
    (let s := ready.modFolio 1 (fun x => { x with junction := 106 })
     ∃ g : FolioId, g ≠ 0 ∧ 105 < (s.folio g).junction) := by decide +kernel

/-! ### Witnesses: start-up and the curators -/

/-- A stage in progress. -/
def inG (g : Stage) : State := { ready with cur := { stage := g } }
/-- ROM with both leaves, with leaf B alone, with none; ELECT before and at its 1,000 ticks; BOOKPLATE; a dead ROM. -/
theorem witness_election :
    (let s : State := { inG .rom with clk := { ready.clk with ready := 0x11 } }
     s.inStage .rom = true ∧ s.eligible s.cur.curA ⟨true, true, true, true⟩ false = true ∧
     s.eligible s.cur.curA ⟨true, false, true, true⟩ false = false ∧
     s.eligible s.cur.curB ⟨true, true, true, true⟩ true = true ∧ s.eligible s.cur.curB ⟨true, true, true, false⟩ true = false ∧
     bitOf s.clk.ready 0 = true ∧ s.cur.stage = .rom) ∧
    (let s (n : Nat) : State := { inG .elect with cur := { stage := .elect, curB := { eligible := true } },
                                                  clk := { ready.clk with tick := BitVec.ofNat 64 n } }
     (s 999).inStage .elect = true ∧ (s 999).cur.curA.claim = false ∧ (s 999).cur.curB.eligible = true ∧
     (s 999).inStageFor < 1000 ∧ 1000 ≤ (s 1000).inStageFor) ∧
    (inG .bookplate).inStage .bookplate = true ∧
    (let s (n : Nat) : State := { inG .rom with ext := n }
     (s 0).pwr.powered = true ∧ bitOf (s 0).clk.ready 0 = true ∧ (s 0).cur.stage = .rom ∧
     (s 0).clk.readySince[(0 : PortId)] + 200000 ≤ (s 200000).ext ∧ (s 199999).ext < (s 0).clk.readySince[(0 : PortId)] + 200000) := by
  decide
/-- Every stage from CLOCKS to RAISE in progress, on a frame edge and off it; a stage at and over its limit; reports that
name a folio, a shortened carrel at its position and a failed global checker; a raise that stands and one that waits. -/
theorem witness_stages :
    (inG .clocks).inStage .clocks = true ∧ (inG .inventory).inStage .inventory = true ∧ (inG .rebind).inStage .rebind = true ∧
    (inG .audit).inStage .audit = true ∧ (inG .calibrate).inStage .calibrate = true ∧ (inG .raise).inStage .raise = true ∧
    (inG .clocks).clk.tick.toNat % 16 = 0 ∧
    ({ inG .clocks with clk := { ready.clk with tick := 17 } } : State).clk.tick.toNat % 16 ≠ 0 ∧
    (inG .audit).hasFolioEntry 3 = false ∧ (0, 3) ∈ (⟨[(0, 3)], [], [], [], []⟩ : AuditReport).folios ∧
    (let rep : AuditReport := ⟨[], [c0], [], [], [(0, false)]⟩
     c0 ∈ rep.shortened ∧ c0.dport = 0 ∧ c0.folio = 0 ∧ (0, false) ∈ rep.curators) ∧
    (inG .raise).raised = false ∧
    ({ inG .raise with clk := { ready.clk with freq := 0 } } : State).raised = true ∧
    (let s (n : Nat) : State := { inG .clocks with clk := { ready.clk with tick := BitVec.ofNat 64 n } }
     (s 0).cur.stage.limit = some 5000 ∧ (s 0).act = .none ∧ (s 0).cur.wait = .none ∧ (s 0).cur.taking = false ∧
     (s 5000).inStageFor ≤ 5000 ∧ 5000 < (s 5001).inStageFor) := by decide
/-- An erased flash holds no checkpoint: the position of R418 is 0. -/
theorem witness_shortening : ready.cur.mode ≠ .plain := by decide
/-- Heartbeats: in time and late, with a standby and without, and a takeover in progress. -/
theorem witness_heartbeats :
    (ready.curatorRuns = true ∧ 3 ≤ ready.cur.stage.code ∧ ready.cur.taking = false) ∧
    (let s : State := { ready with cur := { stage := .ready, taking := true } }
     s.curatorRuns = true ∧ s.cur.taking = true) ∧
    (let s (n : Nat) : State := { ready with cur := { stage := .ready, standby := true }, ext := n }
     (s 399).curatorRuns = true ∧ (s 399).cur.standby = true ∧ (s 399).ext < (s 399).cur.heartbeat + 400 ∧
     (s 400).cur.heartbeat + 400 ≤ (s 400).ext ∧ (s 400).mbx.relinq = none ∧
     (s 2000).cur.heartbeat + 2000 ≤ (s 2000).ext) ∧
    (let s (n : Nat) : State := { ready with ext := n }
     (s 1999).ext < (s 1999).cur.heartbeat + 2000 ∧ (s 2000).cur.heartbeat + 2000 ≤ (s 2000).ext) := by decide

/-! ### Witnesses: carrels, the scheduled plane and passes -/

/-- A request and a pass of it. -/
def req0 : Request := { reader := 0, outInline := true, inLen := 4 }
/-- A pass of it. -/
def pass0 : Pass := { req := req0 }
/-- A volume of one carrel. -/
def vol0 : Volume :=
  { hash := [], pure_ := false, w := 1, h := 1, len := 4, workBase := 16, inLen := 4, inDx := 0, inDy := 0, inBase := 16,
    stacksLen := 0, region := 0, delta := none, parts := [] }
/-- The served bay in a phase, with a pass and its carrel. -/
def inBay (ph : BayPhase) (p : Pass) (ws : List PendingWord) (k : Carrel) : State :=
  (served.setCarrel c0 { k with bay := some 0 }).modBay 0 (fun x =>
    { x with phase := ph, pass := some p, vslots := [(0, some vol0)], words := ws })

/-- Two carrels side by side in one bay. -/
def wide (p : Pass) (k l : Carrel) : State :=
  { ((inBay .recalled p [] k).setCarrel (carrelAt 1 0) { l with bay := some 0 }) with
    cdx := { codex := some { codex1 with bays := [{ bay1 with w := 2 }] } } }
/-- Recalls at a boundary, of a long instruction, of a carrel stopped by an overrun or a fault and of one that drains;
sentinel steps at the allowance and over it, in a running bay. -/
theorem witness_recalls :
    (let s := inBay .recalled { pass0 with recallIn := 1 } [] { run := .recalling, long := some (0x2C, 5) }
     s.fabricRuns = true ∧ (s.carrel c0).bay = some 0 ∧ (s.bay 0).pass = some { pass0 with recallIn := 1 } ∧
     (s.carrel c0).run = .recalling ∧ (s.carrel c0).long = some (0x2C, 5) ∧ ({ pass0 with recallIn := 1 } : Pass).recallIn ≠ 0) ∧
    (let s := inBay .recalled { pass0 with recallIn := 5 } [] { run := .overrun }
     (s.carrel c0).run = .overrun ∧ (s.carrel c0).long = none ∧ (s.carrel c0).regs.pg.valid = false) ∧
    (let s := inBay .recalled { pass0 with recallIn := 1 } [] { run := .recalling, regs := { pg := { valid := true } } }
     (s.carrel c0).long = none ∧ (s.carrel c0).regs.pg.valid = true) ∧
    (let s := inBay .recalled { pass0 with recallIn := 4 } [] { run := .faulted }
     (s.carrel c0).run = .faulted) ∧
    (let s (st : List PendingStore) := inBay .recalled { pass0 with recallIn := 1 } [] { run := .quiescing, stores := st }
     ((s []).carrel c0).run = .quiescing ∧ ((s []).bay 0).phase = .recalled ∧ ((s []).carrel c0).repQuiesced = false ∧
     c0.key ∉ ({ pass0 with recallIn := 1 } : Pass).quiesced ∧ ((s []).carrel c0).loads = [] ∧ ((s []).carrel c0).stores = [] ∧
     ((s [⟨0, 1, 0⟩]).carrel c0).stores ≠ []) ∧
    (let s := inBay .running pass0 [] { run := .exited, regs := { st := { allow := 2 } }, beatReplays := 1 }
     s.fabricRuns = true ∧ (s.carrel c0).bay = some 0 ∧ (s.bay 0).phase = .running ∧
     (s.carrel c0).beatReplays + 1 = (s.carrel c0).regs.st.allow.toNat) := by decide
/-- Reports: the last QUIESCED of a PREEMPT, with no carrel faulted and with one, a terminating recall pending or not, and of
another cause; a QUIESCED and an EXITED that are not the last; a FAULT, a PLANE and an OVERRUN, before the CRC flit and after. -/
theorem witness_reports :
    (let s := inBay .recalled { pass0 with recallIn := 1 } [] { run := .quiesced, repQuiesced := true }
     s.fabricRuns = true ∧ (s.carrel c0).bay = some 0 ∧ (s.bay 0).pass = some { pass0 with recallIn := 1 } ∧
     (s.carrel c0).repQuiesced = true ∧ (s.bay 0).phase = .recalled ∧
     0 + 1 = (s.bayCarrels 0).length ∧ ∀ d ∈ s.bayCarrels 0, (s.carrel d).run ≠ .faulted) ∧
    (let s (pend : Bool) := wide { pass0 with recallIn := 1, quiesced := [c0.key] } { run := .faulted }
       { run := .quiesced, repQuiesced := true, regs := { rc := { pending := pend, pendingCause := 4 } } }
     ([c0.key].length + 1 = ((s false).bayCarrels 0).length) ∧ ((s false).carrel (carrelAt 1 0)).repQuiesced = true ∧
     (∃ d ∈ (s false).bayCarrels 0, ((s false).carrel d).run = .faulted) ∧
     (∀ d ∈ (s false).bayCarrels 0, ((s false).carrel d).regs.rc.pending = false) ∧
     (∃ d ∈ (s true).bayCarrels 0, ((s true).carrel d).regs.rc.pending = true ∧
       ((s true).carrel d).regs.rc.pendingCause ≠ 1)) ∧
    ({ pass0 with recallIn := 3 } : Pass).recallIn ≠ 1 ∧
    (let s := wide pass0 { repQuiesced := true, repExited := true } {}
     (s.carrel c0).repQuiesced = true ∧ (s.carrel c0).repExited = true ∧ 0 + 1 < (s.bayCarrels 0).length) ∧
    (let s := { inBay .running pass0 [] { repFault := true, repPlane := true, repOverrun := true } with
                act := .freqChange .railsFirst }
     (s.bay 0).phase = .running ∧ s.partner 0 = none ∧ (s.carrel c0).repFault = true ∧ (s.carrel c0).repPlane = true ∧
     (s.carrel c0).repOverrun = true ∧ s.trimOpen = false ∧ s.fabricRuns = true ∧ s.crcArrived 0 = false ∧
     (s.modCarrel c0 (fun k => { k with regs := { k.regs with switch := { rxDone := some true } } })).crcArrived 0 = true) := by
  decide
/-- Control words: START, RESUME, RECALL in each phase, FRACTION; a word whose CRC-8 is good (all zero, and a FRACTION of
8) and one whose is not; a carrel of no bay. -/
theorem witness_control :
    (let s := inBay .setup pass0 [{ op := 1 }] {}
     s.bayEntry 0 = some bay1 ∧ (s.bay 0).pass = some pass0 ∧ (s.bay 0).running = some vol0 ∧ s.fabricRuns = true ∧
     (s.bay 0).phase = .setup ∧ (s.bay 0).word.op = 1 ∧ s.bayWarm 0 = true ∧ c0 ∈ bay1.carrels ∧
     carrelAt 1 0 ∉ bay1.carrels) ∧
    (let s := inBay .resumeIssued pass0 [{ op := 2 }] { run := .quiesced }
     (s.bay 0).phase = .resumeIssued ∧ (s.bay 0).word.op = 2 ∧ s.bayWarm 0 = true ∧ c0 ∈ s.bayCarrels 0 ∧
     (s.carrel c0).run = .quiesced) ∧
    (let s := inBay .running pass0 [{ recallIn := 1, fraction := 8 }] { run := .exited }
     (s.bay 0).word.recallIn ≠ 0 ∧ (s.bay 0).phase = .running ∧ (s.bay 0).word.fraction ≠ 0 ∧ s.fabricRuns = true ∧
     c0 ∈ s.bayCarrels 0 ∧ (s.carrel c0).run = .exited ∧ (s.bay 0).pass = some pass0) ∧
    (∀ n : BitVec 4, n = 1 ∨ n = 3 → ∀ ph ∈ [BayPhase.setup, .resumeIssued, .recalled, .shelvingOut, .shelvingIn, .idle, .refreshing],
      let s := inBay ph pass0 [{ recallIn := n }] {}
      (s.bay 0).phase = ph ∧ (s.bay 0).word.recallIn = n ∧ s.fabricRuns = true) ∧
    controlOk 0 = true ∧ controlOk 1 = false ∧
    (let s := inBay .running pass0 [] {}
     (s.carrel c0).bay = some 0 ∧ (s.bay 0).words = [] ∧ s.bayEntry 0 = some bay1 ∧ (s.bay 0).phase = .running) ∧
    ((ready.carrel c0).bay = none) ∧
    (let w : Word := 0x80 ||| ((List.range 256).foldl (fun m n =>
       if controlOk (0x80 ||| (BitVec.ofNat 32 n <<< 24)) then BitVec.ofNat 32 n <<< 24 else m) 0)
     controlOk w = true ∧ (wordFields w).blank = false) := by
  decide +kernel
/-- A bay of three carrels in a row, its pass running, the middle one with a timetable entry in force. -/
def row3 (m : Memory) : State :=
  { ((inBay .running pass0 [] {}).setCarrel (carrelAt 1 0)
      { run := .running, bay := some 0, sram := m,
        regs := { switch := { running := true, pos := { left := 1, ended := false } } } }) with
    cdx := { codex := some { codex1 with bays := [{ bay1 with w := 3 }] } } }
/-- A running bay and one that does not run; its bounds; a neighbour; entries that route N and W to RECV, W to E, and send
a slot; no due flit, so a flit that is no idle one is a plane error. -/
theorem witness_switch :
    ((row3 []).planeRuns 0 = true ∧ (row3 []).bayEntry 0 = some { bay1 with w := 3 } ∧ bay1.x0 + 3 ≤ 544 ∧ bay1.y0 + 1 ≤ 544 ∧
     carrelAt 1 0 ∈ ({ bay1 with w := 3 } : BayEntry).carrels ∧ carrelAt 3 0 ∉ ({ bay1 with w := 3 } : BayEntry).carrels ∧
     ({ bay1 with w := 3 } : BayEntry).neighbour (carrelAt 1 0) 1 = some (carrelAt 2 0) ∧ served.planeRuns 0 = false) ∧
    (let a (m : Memory) := ((row3 m).carrel (carrelAt 1 0)).act
     (a [(1, 0x80)]).recv = 1 ∧ (a [(2, 2)]).recv = 4 ∧ (a [(1, 1)]).out 1 = 4 ∧ (a []).out 2 = 0 ∧ (a []).recv = 0 ∧
     (a [(0, 0x40), (1, 1)]).out 1 = 5 ∧ (a [(0, 0x40), (1, 1)]).crc = false) ∧
    (idleFlit.getLsbD 126 = false ∧ idleFlit.getLsbD 127 = true ∧
     (let f := dataFlit 0
      f.getLsbD 126 = true ∧ f.getLsbD 127 = false ∧ flitParityBad f = false)) := by
  decide +kernel
/-- Set-up: the copy, the lookup that misses and the one that hits, the input write; a refresh with none waiting. -/
theorem witness_setup :
    (let s := inBay .setup pass0 [] {}
     s.bayEntry 0 = some bay1 ∧ (s.bay 0).volume pass0.req.vslot = some vol0 ∧ s.fabricRuns = true ∧
     (s.bay 0).pass = some pass0 ∧ (s.bay 0).phase = .setup ∧ pass0.copied = false ∧ pass0.looked = false ∧
     (s.bay 0).findTag vol0 pass0.req = none) ∧
    (let m : Bookmark := { vslot := 0, volume := bytesAt [] 0 16, reader := 0, key := 0, archive := false, set := 0,
                           written := 0, recent := 0, parts := [] }
     let s := (inBay .setup pass0 [] {}).modBay 0 (fun x => { x with bookmarks := [m] })
     (s.bay 0).findTag vol0 pass0.req = some m ∧ m.archive = false) ∧
    (let p : Pass := { pass0 with copied := true, looked := true, writeBm := true }
     p.inputDone = false ∧ (inBay .setup p [] {}).isSecond 0 = false) ∧
    (let s := inBay .refreshing pass0 [] {}
     (s.bay 0).phase = .refreshing ∧ (s.bay 0).writing = none ∧ (s.bay 0).next = [] ∧
     pass0.req.vslot = (s.bay 0).lastSlot) ∧
    (let s := (inBay .refreshing pass0 [] {}).modBay 0 (fun x => { x with writing := some pass0 })
     (s.bay 0).writing = some pass0) ∧
    (∀ r ∈ [(c0, Ecc.corrected 2)], r.2.bad = false) ∧ (∃ r ∈ [(c0, Ecc.uncorrectable)], r.2.bad = true) := by decide
/-- A codex without programs names no timetable. -/
theorem witness_no_timetable (d : CarrelId) : (inBay .setup pass0 [] {}).timetable 0 bay1 0 d = none := rfl
/-- Shelving out with no terminating recall issued, with one, with an overrun recorded, and with an uncorrectable word;
shelving in with nothing pending, a PREEMPT and a terminating recall. -/
theorem witness_shelving :
    (let s := inBay .shelvingOut pass0 [] {}
     s.fabricRuns = true ∧ (s.bay 0).pass = some pass0 ∧ (s.bay 0).phase = .shelvingOut ∧ pass0.stopped = 0 ∧
     ∀ c ∈ s.bayCarrels 0, (s.carrel c).regs.st.overrun = false) ∧
    ({ pass0 with stopped := 3 } : Pass).stopped ≠ 0 ∧
    (let s := inBay .shelvingOut pass0 [] { regs := { st := { overrun := true } } }
     ∃ c ∈ s.bayCarrels 0, (s.carrel c).regs.st.overrun = true) ∧
    (∀ q ∈ [(c0, Ecc.corrected 2)], q.2.bad = false) ∧
    [(c0, Ecc.uncorrectable)].find? (fun q => q.2.bad) = some (c0, .uncorrectable) ∧
    (let s (pend : Bool) (n : BitVec 4) :=
       (inBay .shelvingIn pass0 [] { regs := { rc := { pending := pend, pendingCause := n } } }).modBay 0 (fun x =>
         { x with shelved := some pass0, pass := none })
     ((s false 0).bay 0).shelved = some pass0 ∧ ((s false 0).bay 0).phase = .shelvingIn ∧
     ((s false 0).endWriteBack 0 []).pendingCause 0 = 0 ∧ ((s true 1).endWriteBack 0 []).pendingCause 0 = 1 ∧
     ((s true 3).endWriteBack 0 []).pendingCause 0 = 3) := by decide
/-- Two bays, FIRST 0 and SECOND 1. -/
def twin (p q : Pass) : State :=
  ((({ ready with cdx := { codex := some { codex1 with bays := [bay1, { bay1 with bay := 1, x0 := 1 }], duplex := [⟨0, 1⟩] } } }
    : State).modBay 0 (fun x => { x with pass := some p })).modBay 1 (fun x => { x with pass := some q }))
/-- A port that shelving holds and one that it does not; loans at and below their end; a release boundary that has come and
one that has not, with a payload, without one, withheld, and at the loan's end; payloads that agree and that differ. -/
theorem witness_loans :
    ((inBay .shelvingIn pass0 [] {}).portShelves c0 = true ∧ (inBay .running pass0 [] {}).portShelves c0 = false) ∧
    (let s (n : Nat) : State :=
       { inBay .running { pass0 with passLoan := 10, reqLoan := 20 } [] {} with clk := { ready.clk with tick := BitVec.ofNat 64 n } }
     (s 9).tickRuns = true ∧ (s 9).bayIds = [0] ∧ (s 9).isSecond 0 = false ∧ (s 9).partner 0 = none ∧
     ((s 9).bay 0).next = [] ∧ ((s 9).bay 0).shelved = none ∧ ((s 9).bay 0).phase = .running ∧ pass0.released = false ∧
     pass0.recorded = false ∧ ((s 9).clk.tick - pass0.admitted).toNat < 10 ∧ 10 ≤ ((s 10).clk.tick - pass0.admitted).toNat ∧
     ((s 19).clk.tick - pass0.admitted).toNat < 20 ∧ 20 ≤ ((s 20).clk.tick - pass0.admitted).toNat) ∧
    (let s (n : Nat) := inBay .running pass0 [] { regs := { switch := { rxDone := some true, w := n } } }
     (s 0).fabricRuns = true ∧ (s 0).bayEntry 0 = some bay1 ∧ ((s 0).bay 0).phase = .running ∧ pass0.gated = false ∧
     ((s 0).carrel bay1.egress).regs.switch.rxDone.isSome ∧ (s 15).releaseDue 0 bay1 = false ∧
     (s 16).releaseDue 0 bay1 = true ∧ (s 16).partner 0 = none ∧ (s 16).cur.taking = false) ∧
    (let p : Pass := { pass0 with payload := some [1], passLoan := 10, reqLoan := 20 }
     let s (n : Nat) : State := { inBay .running p [] {} with clk := { ready.clk with tick := BitVec.ofNat 64 n } }
     p.report = false ∧ p.late = false ∧ p.payload.isSome ∧ p.ending = none ∧ p.recorded = false ∧ p.released = false ∧
     (s 9).loanReached p = false ∧ (s 10).loanReached p = true) ∧
    (let p : Pass := { pass0 with payload := some [1], gated := true, passLoan := 10, reqLoan := 20 }
     let q : Pass := { pass0 with payload := some [2], gated := true, passLoan := 10, reqLoan := 20 }
     let s := twin p q
     s.fabricRuns = true ∧ s.partner 0 = some 1 ∧ (0 : BayId) ≠ 1 ∧ s.isSecond 0 = false ∧ s.cur.taking = false ∧
     (s.bay 0).pass = some p ∧ (s.bay 1).pass = some q ∧ p.acc = q.acc ∧ p.ending = none ∧ p.report = false ∧ p.late = false ∧
     s.int.misValid = false ∧ s.loanReached p = false ∧
     ({ s with clk := { s.clk with tick := 10 } } : State).loanReached p = true) := by decide +kernel

/-! ### Witnesses: the routed plane, homes and peer links -/

/-- A read request from the corner toward an alcove column, with a PCRC of zero. -/
def readPkt (dax : BitVec 8) (cls sys : Bool) : Packet := { Packet.blank with type := 1, dax := dax, cls := cls, sys := sys }
/-- Routers: an input that is there and one in front of a blocked folio; a Dark folio; room and none; an uncorrectable word;
a packet that no row of Table 9.3 is, SYS from a carrel row, a ticket that nothing allows, one that goes on and one that has
arrived; a wafer that no link leads to; a SYNC word waiting and none. -/
theorem witness_routers :
    (let a := alcoveAt 0 0
     let wire (p : Packet) : State := { ready with net := [⟨.router a 4, p, none⟩], routers := [(0, { tickets := [⟨0, 0x1FF⟩] })] }
     ready.inputThere a 4 = true ∧ (ready.modFolio 0 (fun x => { x with state := .blocked })).inputThere a 4 = false ∧
     ready.folioRouts a.folio = true ∧
     (let s := ready.modFolio 0 (fun x => { x with clock := .dark })
      s.inputThere a 4 = true ∧ s.folioRouts a.folio = false) ∧
     (∀ p ∈ [readPkt 0 false true, readPkt 1 false false, { readPkt 0 false false with type := 0 }],
       (wire p).nextPacket (.router a 4) p = some ⟨.router a 4, p, none⟩ ∧ ((wire p).router a).room 4 p = true) ∧
     (wire (readPkt 0 false false)).nextPacket (.router a 4) (readPkt 2 false false) =
       some ⟨.router a 4, readPkt 2 false false, none⟩ ∧
     (wire (readPkt 0 true false)).nextPacket (.router a 4) (readPkt 2 true false) = some ⟨.router a 4, readPkt 2 true false, none⟩ ∧
     (let r : Router := { buf := [⟨4, { readPkt 0 false false with len := 5 }, 1, none⟩] }
      r.room 4 (readPkt 0 false false) = false) ∧
     (let chk : LinkChecks := ⟨[.single], [.good, .double]⟩
      LinkCheck.double ∈ chk.flits.take (readPkt 0 false false).flits ∧ LinkCheck.double ∉ (⟨[.double], []⟩ : LinkChecks).flits.take 2) ∧
     Packet.typeOk { readPkt 0 false false with type := 0 } = false ∧
     Packet.typeOk (readPkt 0 false true) = true ∧ ready.portOk (readPkt 0 false true) = true ∧
     (readPkt 0 false true).sys = true ∧ 4 ≤ (4 : RouterPort).val ∧ (7 : RouterPort).val < 8 ∧
     (ready.router a).allows 0 4 = false ∧
     (let s := wire (readPkt 0 false false)
      (s.router a).allows 0 4 = true ∧ (readPkt 0 false false).dw = s.ownWafer ∧
      (readPkt 0 false false).dax.toNat = a.ax.val ∧ a.ax.val < (readPkt 1 false false).dax.toNat ∧
      (readPkt 1 false false).flits ≤ (s.router a).free 1 (readPkt 1 false false).channel ∧
      s.folioRouts (alcoveAt 1 0).folio = true ∧ ∀ d ∈ [alcoveAt 0 0, alcoveAt 1 0], (s.router d).buf = []) ∧
     (let q : Packet := { readPkt 0 false false with dw := 1 }
      q.dw ≠ ready.ownWafer ∧ ready.chooseLink q = none) ∧
     (let w : SyncTransit := ⟨a, 1, 0⟩
      let s : State := { ready with syncs := [w] }
      s.syncs.find? (fun w => w.at_ == a && w.port == 1) = some w ∧
      ready.syncs.find? (fun w => w.at_ == a && w.port == 1) = none)) := by decide +kernel
/-- No router of the wafer after reset holds a packet. -/
theorem witness_empty_routers (d : AlcoveId) : (ready.router d).buf = [] := rfl
/-- A request for the corner's stacks, of a type, from a carrel's port, with its PCRC. -/
def homeReq (type : BitVec 4) (sport : BitVec 5) : Packet :=
  { Packet.blank with type := type, call := stacksCall c0 64, size := 2, sport := sport }.sealed
/-- Homes: a location, a queued requester at 99 and 100 ticks; a request at its home that is taken, one that waits for the
carrel's own turn, behind an earlier one, or at a folio that is not present; a call that names no place, a sender that reaches nothing
there; an entry that stands and none. -/
theorem witness_homes :
    ready.locate (stacksCall c0 64) = some (.stackMem c0 64) ∧ ready.locate (BitVec.allOnes 48) = none ∧
    ((Location.stackMem c0 64).capacity ≠ 0 ∧ ready.homePort (.stackMem c0 64) = (alcoveAt 0 0, 0)) ∧
    (let q : QueueEntry := ⟨1, 0, 0⟩
     ¬(q.failed + 100 ≤ 99) ∧ q.failed + 100 ≤ 100) ∧
    (let p := homeReq 1 0
     let w : Transit := ⟨.endpoint, p, none⟩
     let s : State := { ready with net := [w] }
     s.onWire .endpoint p = some w ∧ p.reply = false ∧ p.type = 1 ∧ p.crcOk = true ∧ s.endpointOpen p = true ∧
     s.firstAtHome w = true ∧ s.homeTakes p = true ∧ s.senderReaches p (.stackMem c0 64) = true ∧
     p.dax.toNat = 0 ∧ p.dport.toNat = 0 ∧ ({ s with inv := {} } : State).endpointOpen p = false ∧
     (s.setCarrel c0 { run := .running, cellWait := true }).homeTakes p = false ∧
     ({ ready with net := [⟨.endpoint, homeReq 2 1, none⟩, w] } : State).firstAtHome w = false) ∧
    (ready.senderReaches (homeReq 1 20) (.stackMem c0 64)) = false ∧
    (let g := (Location.stackMem c0 64).granule
     let p := homeReq 4 0
     ({ entries := [⟨g, p.requester, p.ticket⟩] } : Home).condOk g p.requester p.ticket = true ∧
     ({} : Home).condOk g p.requester p.ticket = false) := by decide +kernel
/-- A packet's CRC can be good and can be bad. -/
theorem witness_crc :
    (let p : Packet := { Packet.blank with type := 1, call := stacksCall c0 64, size := 2 }
     ({ p with pcrc := crc32c p.crcBytes } : Packet).crcOk = true ∧
     ({ p with pcrc := crc32c p.crcBytes + 1 } : Packet).crcOk = false) := by decide +kernel
/-- Replies: a load of one piece, a store, a conditional store, waiting for the reply's tag, and a reply that reports an
error; one for another agent, its PCRC good and bad. -/
theorem witness_replies :
    (let piece : LoadPiece := ⟨0, 0, 4, 0⟩
     let p : Packet := { Packet.blank with type := 1, reply := true }.sealed
     let s : State := { one { loads := [⟨[piece], [0, 0, 0, 0], 1, 2, false, false, 1⟩] } with net := [⟨.endpoint, p, none⟩] }
     s.onWire .endpoint p = some ⟨.endpoint, p, none⟩ ∧ p.reply = true ∧ p.dport.toNat < 16 ∧ p.dstCarrel = c0 ∧
     s.endpointOpen p = true ∧ p.crcOk = true ∧ piece.tag = p.tag ∧ ¬(p.status = 1 ∨ p.status = 2) ∧
     (s.carrel c0).run = .running ∧ ({ p with status := 2 } : Packet).status = 2) ∧
    (let p : Packet := { Packet.blank with type := 2, reply := true }
     (⟨0, 1, 0⟩ : PendingStore).tag = p.tag ∧ p.type = 2 ∧
     (⟨[⟨0, 0, 4, 0⟩], [], 1, 2, true, false, 1⟩ : PendingLoad).isCond = true) ∧
    (let p : Packet := { Packet.blank with type := 2, reply := true, dport := 16 }.sealed
     let s : State := { ready with net := [⟨.endpoint, p, none⟩] }
     s.onWire .endpoint p = some ⟨.endpoint, p, none⟩ ∧ 16 ≤ p.dport.toNat ∧ s.endpointOpen p = true ∧ p.crcOk = true ∧
     ({ p with pcrc := p.pcrc + 1 } : Packet).crcOk = false) := by decide +kernel
/-- A message for the curator of leaf A, of a type. -/
def curatorMsg (type : BitVec 4) : Packet :=
  let a := (curatorAlcoves false).headD (alcoveAt 0 0)
  { Packet.blank with type := type, sys := true, len := 1, dport := 16, dax := BitVec.ofNat 8 a.ax.val,
                      day := BitVec.ofNat 8 a.ay.val, data := [7] }.sealed
/-- Messages: a CTRL and an ABORT that a curator takes, their PCRC good and bad; a bay that spans wafers and none; a wave
known and unknown. -/
theorem witness_messages :
    (∀ ty : BitVec 4, ty = 8 ∨ ty = 9 →
      let p := curatorMsg ty
      ready.nextPacket .endpoint p = some ⟨.endpoint, p, none⟩ ∧ p.reply = false ∧ Packet.typeOk p = true ∧ p.dport = 16 ∧
      ready.isBlocked p.dstFolio = false ∧
      (curatorAlcoves false ++ curatorAlcoves true).contains (alcoveAt p.dax.toNat p.day.toNat) = true ∧ p.crcOk = true ∧
      ({ p with pcrc := p.pcrc + 1 } : Packet).crcOk = false) ∧
    (let x : Codex := { codex1 with bays := [{ bay1 with spans := true }] }
     let s : State := { ready with cdx := { codex := some x } }
     let v := waveOf (flitBytes (curatorMsg 9).data)
     s.fabricRuns = true ∧ s.catBayOf 7 = some 0 ∧ s.catBayOf 8 = none ∧ v.catBay = 7 ∧ (v.origin, v.wave) ∉ (s.bay 0).waves ∧
     (s.bay 0).waveSet = none ∧
     (v.origin, v.wave) ∈ ((s.modBay 0 (fun y => { y with waves := [(v.origin, v.wave)] })).bay 0).waves) := by
  decide +kernel
/-- Peer links: a reference and none; each training stage, a good partner and a wrong one, 64 round trips that agree and
that do not, a retry before and at its time, an offset at and below 0.1 ppm, in and out of the mesochronous state. -/
theorem witness_links :
    ready.peersRun = true ∧ ({ ready with act := .dead 0 } : State).peersRun = false ∧
    (∀ n ∈ [1, 2, 3], let s := ready.modLink 0 (fun k => { k with state := .training, stage := n })
     (s.link 0).state = .training ∧ (s.link 0).stage = n ∧ (s.link 0).lastGood = 0) ∧
    (ready.identityOk 0 ⟨0, 0, neighbourWafer 0 0 0, 1, 0, 5, 0⟩ = true ∧
     ready.identityOk 0 ⟨0, 0, neighbourWafer 0 0 0, 0, 0, 5, 0⟩ = false) ∧
    ((List.replicate 64 7).length = 64 ∧ (∀ v ∈ List.replicate 64 7, v ≤ 7) ∧ 7 ∈ List.replicate 64 7 ∧
     (∀ v ∈ List.replicate 64 7, 7 ≤ v + 2) ∧ 94 * 7 ≤ 4000000 ∧ ∃ v ∈ [4, 7], ∃ u ∈ [4, 7], v + 2 < u) ∧
    (let s : State := { ready.modLink 0 (fun k => { k with retryAt := some 10 }) with lnk := { shape := 0x7FF } }
     (s.link 0).retryAt = some 10 ∧ s.linkMayTrain 0 = true ∧ s.ext < 10 ∧ 0 ≤ s.ext) ∧
    (let s (o : Word) := ready.modLink 0 (fun k => { k with state := .mesochronous, stage := 4, offValid := true, offset := o })
     ((s 99).link 0).state = .mesochronous ∧ ((s 99).link 0).stage = 4 ∧
     ((s 99).link 0).inService = true ∧ ((s 99).link 0).offValid = true ∧ mesochronous ((s 99).link 0).offset = true ∧
     mesochronous ((s 100).link 0).offset = false ∧
     (99 : Word).toInt.natAbs < 100 ∧ ¬(100 : Word).toInt.natAbs < 100 ∧ (s 99).linkCrossing 0 = none) := by
  decide
/-- A codeword with a number, a kind and words. -/
def cw (good : Bool) (seq : BitVec 7) (kind : BitVec 2) (ws : List LinkWord) : Codeword :=
  Codeword.sealed ⟨good, false, 0, seq, 0, false, false, kind, 0, 0, 0, 0, ws⟩
/-- A codeword with its own CRC is good where the FEC decodes it. -/
theorem cw_good (b : Bool) (n : BitVec 7) (k : BitVec 2) (ws : List LinkWord) : (cw b n k ws).good = b := by
  simp [cw, Codeword.good, Codeword.sealed, Codeword.crcNow, Codeword.covered, Codeword.word]
/-- Codewords: in order, out of order, with a routed packet's words, not good as the eighth and the ninth of 600 ticks,
frozen; a link out of service; silence of 99 and 100 ticks; a word past its cycle. -/
theorem witness_codewords :
    (let s (n : Nat) := ready.modLink 0 (fun k => { k with state := .routed, rxSeq := some 4, replayAt := List.replicate n 0 })
     (s 7).peersRun = true ∧ ((s 7).link 0).inService = true ∧ (s 7).linkCrossing 0 = none ∧ ((s 7).link 0).rxSeq = some 4 ∧
     (cw true 5 0 []).good = true ∧ (cw true 5 0 []).kind ≠ 3 ∧ (cw true 5 0 []).kind ≠ 2 ∧ (cw true 5 0 []).nack = false ∧
     (cw true 5 0 []).seq = 4 + 1 ∧ (cw true 6 0 []).seq ≠ 4 + 1 ∧ (cw false 5 0 []).good = false ∧ (cw true 5 3 []).kind = 3 ∧
     (((s 7).link 0).replayAt.filter (fun r => decide ((s 7).ext < r + 600))).length < 8 ∧
     8 ≤ (((s 8).link 0).replayAt.filter (fun r => decide ((s 8).ext < r + 600))).length) ∧
    (readPkt 0 false false).span = 0 ∧ (ready.link 0).inService = false ∧
    ({ ready with ext := 100 } : State).ext = 0 + 100 ∧ ({ ready with ext := 99 } : State).ext < 0 + 100 ∧
    (let e : CrossingEntry := { bay := 0, dir := 0, link := 0, k := 0, set := 0 }
     let s : State := { inBay .running pass0 [] {} with cdx := { codex := some { codex1 with crossings := [e] } } }
     s.linkCrossing 0 = some e ∧ s.fabricRuns = true ∧ (s.bay e.bay).phase = .running ∧ (s.bay e.bay).pass = some pass0 ∧
     s.partner e.bay = none) := by
  simp only [cw_good]
  decide
/-- CRC-16 of nine ASCII digits, first digit highest, is the check value 0x29B1 of polynomial 0x1021 with initial value
0xFFFF (Table 16.1). -/
theorem test_crc16 : crc16Step 72 0x313233343536373839 0xFFFF = 0x29B1 := by decide +kernel
/-- The fields of Table 16.1 stand at their bits: a codeword with SEQ 5, KIND 3 and a routed word first. -/
theorem test_codeword_bits :
    bitsOf [(7, 5), (7, 0), (1, 0), (1, 0), (2, 3), (32, 0), (4, 2), (2, 1)] = 5 + 3 * 2 ^ 16 + 2 * 2 ^ 50 + 2 ^ 54 := by
  decide
/-- The codeword of the packet's words is the hypothesis of the routed clause. -/
theorem witness_linkWords (r : Packet) :
    (cw true 5 0 (r.linkWords.map LinkWord.routed)).words = r.linkWords.map LinkWord.routed := rfl

/-! ### Witnesses: the host link -/

/-- The owner's function on a link that is up, bus master, with its verdict ring on or off. -/
def host (x : Reader) : State :=
  (served.modPort 0 (fun p => { p with linkUp := true, perst := false })).modReader 0 (fun _ => { x with busMaster := true })
/-- Rings: before READY, off, on with a tail inside and beyond, freed inside and beyond, sizes 3, 4, 12 and 13, windows. -/
theorem witness_rings :
    (let s : State := { host {} with cur := { stage := .raise } }
     s.hostReaches 0 = true ∧ s.cur.stage ≠ .ready ∧ s.captureWaits = true) ∧
    ({ host {} with act := .dead 0 } : State).captureWaits = true ∧
    (let s := host {}
     s.hostReaches 0 = true ∧ s.captureWaits = false ∧ (s.reader 0).reqEn = false ∧ s.rdrWrites 0 = true ∧
     (s.reader 0).verEn = false ∧ (s.reader 0).notEn = false ∧ (s.reader 0).reading = none ∧
     (s.reader 0).verRing.size.toNat < 4 ∧ bitOf (0xF : BitVec 4) 1 = true ∧
     (0 : DWord).toNat / 4096 * 4096 + 2 ^ 32 ≤ 2 ^ 64 ∧
     (0xFFFFFFFF00000000 : DWord).toNat / 4096 * 4096 + 2 ^ 32 ≤ 2 ^ 64 ∧
     2 ^ 64 < (0xFFFFFFFF00001000 : DWord).toNat / 4096 * 4096 + 2 ^ 32) ∧
    (let s := host { reqEn := true, verEn := true, reqRing := { size := 4 }, verRing := { size := 4, tail := 3 } }
     (s.reader 0).reqEn = true ∧ s.mayCapture 0 = true ∧ 2 ^ (s.reader 0).reqRing.size.toNat ≤ (16 : BitVec 12).toNat ∧
     (15 : BitVec 12).toNat < 2 ^ (s.reader 0).reqRing.size.toNat ∧
     (s.reader 0).verEn = true ∧
     (let g := (s.reader 0).verRing
      (3 + 2 ^ g.size.toNat - g.head.toNat) % 2 ^ g.size.toNat ≤ (g.tail.toNat + 2 ^ g.size.toNat - g.head.toNat) % 2 ^ g.size.toNat ∧
      ¬((4 + 2 ^ g.size.toNat - g.head.toNat) % 2 ^ g.size.toNat ≤
        (g.tail.toNat + 2 ^ g.size.toNat - g.head.toNat) % 2 ^ g.size.toNat))) ∧
    (let g : Ring := { size := 4, head := 14, tail := 2 }
     let ahead (t : BitVec 12) : Nat := (t.toNat + 2 ^ g.size.toNat - g.head.toNat) % 2 ^ g.size.toNat
     ahead g.tail ≤ ahead 2 ∧ ahead g.tail ≤ ahead 13 ∧ ahead 14 < ahead g.tail ∧ ahead 1 < ahead g.tail) ∧
    (let x := (host { reqRing := { size := 4 }, verRing := { size := 12 }, notRing := { size := 4 } }).reader 0
     4 ≤ x.reqRing.size.toNat ∧ x.verRing.size.toNat ≤ 12 ∧ x.notRing.size.toNat ≤ 12 ∧ 12 < (13 : BitVec 4).toNat) := by
  decide +kernel
/-- A descriptor of zeros but for its flags, an input of 4 bytes and an inline output. -/
def desc (flags : Byte) : List Byte := List.replicate 19 0 ++ [flags, 4] ++ List.replicate 43 0
/-- Descriptors that are good: the input in the descriptor (Table 14.3), and in the host window. -/
theorem witness_descriptors :
    (let d (f : Byte) := parseDescriptor 0 (bytesAt (desc f) 0 64) 0 0
     served.badDescriptor (d 0x0C) = false ∧ (d 0x0C).inInline = true ∧ served.bound 0 ((d 0x0C).bayRaw.setWidth 12) (d 0x0C).cls = true ∧
     served.badDescriptor (d 0x08) = false ∧ (d 0x08).inInline = false) := by
  decide +kernel
/-- Drops that wait, captured, free and disabled; a descriptor that is being read, one that lies in the descriptor and one that
does not; an input; messages owed and masked; a record held before and at its time. -/
theorem witness_drops :
    (let s := host { verEn := true, dropEn := true }
     s.hostReaches 0 = true ∧ s.captureWaits = false ∧ ({ s with act := .dead 0 } : State).captureWaits = true ∧
     (s.reader 0).drop[(0 : Fin 8)].captured = false ∧
     (s.reader 0).dropEn = true ∧ s.mayCapture 0 = true ∧ (0 : Word) ≠ 0xA5) ∧
    ((host { drop := .replicate 8 { captured := true } }).reader 0).drop[(7 : Fin 8)].captured = true ∧
    (let s := host { reading := some (.descriptor 0 0) }
     s.pwr.powered = true ∧ (s.reader 0).reading = some (.descriptor 0 0) ∧ s.cdx.codex.isSome ∧
     s.bound 0 0 0 = true) ∧
    (let q : Request := { req0 with input := [] }
     let s := host { reading := some (.input q) }
     (s.reader 0).reading = some (.input q) ∧ s.badDescriptor { q with input := bytesAt [1, 2, 3, 4] 0 q.inLen } = false ∧
     s.bound q.reader (q.bayRaw.setWidth 12) q.cls = true) ∧
    (let s := host { msixEn := true, vectors := .replicate 4 { masked := false, owed := true } }
     ((s.reader 0).vectors[(0 : Fin 4)]).owed = true ∧ s.msixDue 0 0 = true ∧ (s.reader 0).msixEn = true ∧
     (s.reader 0).msixMask = false ∧ ((s.reader 0).vectors[(0 : Fin 4)]).masked = false) ∧
    ((host { msixEn := true, vectors := .replicate 4 { masked := true, owed := true } }).reader 0).vectors[(3 : Fin 4)].masked = true ∧
    (let h : Held := ⟨0, [], [], 0, false, [], 0, 0, 1⟩
     let s (n : Nat) : State := { host { held := [h] } with ext := n }
     ((s 0).reader 0).held = [h] ∧ (s 199999).ext < h.since + (s 199999).holdTicks ∧ h.since + (s 200000).holdTicks ≤ (s 200000).ext) := by
  decide +kernel
/-- Ports: a link up and down, VFs enabled; a VF reached; a reset that is running, and one during a codex load. -/
theorem witness_ports :
    (let s := host {}
     s.pwr.powered = true ∧ (s.port 0).linkUp = true ∧ (s.port 0).perst = false ∧ (s.port 1).linkUp = false ∧
     s.portInService 1 = true ∧ bitOf s.clk.present 1 = false ∧
     ({ s with clk := { s.clk with present := 3 } } : State).clk.present = 3 ∧ bitOf (3 : BitVec 8) 1 = true ∧ (1 : BitVec 2) ≠ 0 ∧ s.hostReaches 0 = true ∧ readerIndex 0 = 0 ∧
     (s.port (readerPort 0)).vfEnable = false ∧ (s.reader 0).reading = none) ∧
    (let s := (host {}).modPort 0 (fun p => { p with vfEnable := true, numVfs := 1 })
     s.hostReaches 1 = true ∧ readerIndex 1 ≠ 0 ∧ (s.reader 1).resetting = false ∧ (s.reader 1).deferred = false ∧
     s.cdx.load = none ∧ (s.port 0).vfEnable = true) ∧
    ({ host {} with cdx := { load := some { kind := .flash } } } : State).cdx.load.isSome ∧
    (let s := host { resetting := true }
     (s.reader 0).resetting = true ∧ s.hasPass 0 = false ∧ Tbl.wf {} s.routers = true) ∧
    (let s : State := { host { resetting := true } with routers := [(0, { tickets := [⟨0, 1⟩] })] }
     Tbl.wf {} s.routers = true ∧ (⟨0, 1⟩ : TicketEntry) ∈ (s.router (alcoveAt 0 0)).tickets ∧ (0 : BitVec 16) = s.ticketOf 0 ∧
     (s.router (alcoveAt 0 0)).tickets.length = 1) := by
  decide +kernel

/-! ### Witnesses: the mailbox, the codex, volumes, flash and the ledger -/

/-- Mailbox: frozen, before READY, with a command running, and ready with each mode and length; the archive gone. -/
theorem witness_mailbox :
    (ready.pwr.powered = true ∧ ready.cur.lost = false ∧ ready.frozen = false ∧ ready.cur.stage = .ready ∧
     ready.mbx.running = none ∧ ready.cur.taking = false ∧ ready.cdx.load = none ∧ (ready.reader 0).resetting = false ∧
     (ready.reader 0).deferred = false ∧ ready.led.plain = false ∧ ready.cur.mode ≠ .plain ∧
     ready.mbx.dataLen.toNat ≠ 4304 ∧ ready.mbx.dataLen.toNat ≠ 272 ∧ ready.archiveWorks = true ∧ ready.relinquished = false) ∧
    ({ ready with act := .alert } : State).frozen = true ∧ (inG .raise).cur.stage ≠ .ready ∧
    ({ ready with mbx := { running := some .waferReset } } : State).mbx.running.isSome ∧
    (let s : State := { ready with led := { started := true } }
     s.led.started = true ∧ s.led.cpBusy = false) ∧
    (let s : State := { ready with led := { plain := true }, cur := { stage := .ready, mode := .plain } }
     s.led.plain = true ∧ s.cur.mode = .plain) ∧
    (({ ready with mbx := { dataLen := 4304 } } : State).mbx.dataLen.toNat = 4304 ∧
     ({ ready with mbx := { dataLen := 272 } } : State).mbx.dataLen.toNat = 272) ∧
    (let s : State := { ready with int := { channels := BitVec.allOnes 256 }, led := { staged := [⟨0, 0, [], false⟩] } }
     s.archiveWorks = false ∧ s.led.staged ≠ [] ∧ (s.mbx.args[0]).getLsbD 0 = false) ∧
    ((4 : DWord).toNat / 4 % 4 = 1 ∧ (8 : DWord).toNat / 4 % 4 = 2 ∧ (12 : DWord).toNat / 4 % 4 = 3 ∧ (0 : DWord).toNat / 4 % 4 = 0) := by
  decide +kernel
/-- Codex commands: before READY, idle, frozen, a load or a frequency change in progress, a pass that runs; a header that
agrees with SRC_LEN (64), one whose length does not and one that is not whole; an image of 64 bytes that fails a check, and
one that is still arriving. -/
theorem witness_codex :
    ((inG .raise).cur.stage ≠ .ready ∧ ready.cur.stage = .ready ∧ ready.cur.lost = false ∧ ready.pwr.powered = true ∧
     ready.codexBusy = false ∧ ready.anyPass = false ∧ ready.frozen = false) ∧
    ({ ready with cdx := { load := some { kind := .flash } } } : State).cdx.load.isSome ∧
    ({ ready with act := .alert } : State).frozen = true ∧
    ({ ready with act := .freqChange .relock } : State).act = .freqChange .relock ∧
    (LoadKind.hostWhole.fromHost = true ∧ [(0 : Byte)].length < 64 ∧ [(0 : Byte)].length < (65 : BitVec 29).toNat) ∧
    (let s := inBay .running pass0 [] {}
     s.codexBusy = false ∧ s.anyPass = true) ∧
    (let bs : List Byte := List.replicate 16 0 ++ [64, 0, 0, 0] ++ List.replicate 44 0
     let s (n : Nat) : State := { ready with cdx := { srcLen := BitVec.ofNat 29 n, load := some { kind := .hostWhole, buf := bs } } }
     64 ≤ bs.length ∧ (s 64).cdx.srcLen.toNat = imgLength bs ∧ (s 65).cdx.srcLen.toNat ≠ imgLength bs ∧
     (s 64).cdx.srcLen.toNat ≤ 2 ^ 28 ∧ imgScope bs = LoadKind.hostWhole.scope ∧
     (s 64).loadImage { kind := .hostWhole, headerRead := true, buf := bs } = some bs ∧
     (s 64).cdx.srcLen.toNat ≤ bs.length ∧ ((s 64).checkImage { kind := .hostWhole, buf := bs } bs).1.isSome) := by
  decide +kernel
/-- BAY and BKM commands: dropped, busy, frozen, no bay, a SECOND one, an empty and a full VSLOT, paused and not; a load that
begins, whose offset is wrong, that is short or no multiple of 4 KiB before LAST, that ends and fails, that is read and
abandoned 1 s after its last segment. -/
theorem witness_volumes :
    ((inG .raise).cur.stage ≠ .ready ∧ served.cur.stage = .ready ∧ served.cur.lost = false ∧ served.pwr.powered = true) ∧
    (let s : State := { served with bayRegs := { pausing := some 0 } }
     s.bayRegs.pausing.isSome ∧ s.bayBusy = true) ∧ ({ served with act := .alert } : State).frozen = true ∧
    (served.bayBusy = false ∧ served.bayRegs.load = none ∧ served.bayEntry 1 = none ∧ served.bayExists 0 = true ∧
     served.isSecond 0 = false ∧ served.partner 0 = none ∧ (served.bay 0).volume 0 = none ∧ (served.bay 0).paused = false ∧
     (served.bay 0).pausing = false ∧ served.slotUsed 0 0 = false ∧ served.bayRegs.imgOff = 0) ∧
    ((twin pass0 pass0).bayExists 1 = true ∧ (twin pass0 pass0).isSecond 1 = true) ∧
    (let s := served.modBay 0 (fun x => { x with vslots := [(0, some vol0)], paused := true })
     (s.bay 0).volume 0 = some vol0 ∧ s.slotUsed 0 0 = false ∧ (s.bay 0).paused = true) ∧
    (let s : State := { served with bayRegs := { srcLen := 64, imgLast := true } }
     64 ≤ s.bayRegs.srcLen.toNat ∧ s.bayRegs.imgLast = true ∧ s.bayBusy = false ∧ s.bayRegs.load = none) ∧
    (let s : State := { served with bayRegs := { srcLen := 4097, imgLast := false } }
     s.bayRegs.imgLast = false ∧ s.bayRegs.srcLen.toNat % 4096 ≠ 0 ∧ (63 : BitVec 29).toNat < 64) ∧
    ({ served with bayRegs := { imgOff := 1 } } : State).bayRegs.imgOff ≠ 0 ∧
    (let l : VolLoad := { bay := 0, vslot := 0, reading := true, last := true }
     let s : State := { served with bayRegs := { load := some l } }
     s.bayRegs.load = some l ∧ l.segLen = 0 ∧ s.checkVolume l.bay l.vslot l.bytes = .inl (.badImage, 3)) ∧
    (let l : VolLoad := { bay := 0, vslot := 0 }
     l.reading = false ∧ l.since + 100000000 ≤ 100000000 ∧ 99999999 < l.since + 100000000) ∧
    (served.writesDropped = false ∧ (served.bay 0).free = true ∧ (served.bay 0).ovfSets ≠ 1 ∧
     ((inBay .running pass0 [] {}).bay 0).free = false ∧
     ({ served with int := { channels := BitVec.allOnes 256 } } : State).archiveWorks = false) := by
  decide +kernel
/-- Flash and drain: sizes at and above their limits; a program and an erase with more behind them, a last step; a
checkpoint due and not; heads inside the ring, beyond it and beyond what was written. -/
theorem witness_flash :
    (ready.pwr.powered = true ∧ ready.nvs.cmd = none ∧ ready.orderRuns = false ∧ ready.nvsBusy = false ∧ ready.frozen = false ∧
     ready.cur.mode ≠ .plain ∧ ({ ready with cur := { stage := .ready, mode := .plain } } : State).cur.mode = .plain ∧
     ({ ready with cur := { stage := .ready, mode := .plain } } : State).nvsBusy = false ∧
     (inG .raise).nvsBusy = true ∧ ready.nvs.srcLen.toNat ≤ 2 ^ 22 ∧
     2 ^ 25 < (33554433 : BitVec 29).toNat ∧ (33554432 : BitVec 29).toNat ≤ 2 ^ 25 ∧ 2 ^ 22 < (4194305 : BitVec 29).toNat) ∧
    ({ ready with nvs := { cmd := some .clearCodex } } : State).nvs.cmd.isSome ∧
    (let j : FlashJob := ⟨.codexStore, [.program 0 [1], .erase 0 1], []⟩
     let s : State := { ready with nvs := { jobs := [j], busy := true } }
     s.nvs.jobs = j :: [] ∧ s.nvs.busy = true ∧ j.steps = .program 0 [1] :: .erase 0 1 :: []) ∧
    (let j : FlashJob := ⟨.checkpoint 0 [1], [.program 0 [1]], []⟩
     j.steps = [.program 0 [1]] ∧ j.kind = .checkpoint 0 [1] ∧ ready.led.cpAgain = false ∧ ready.led.cpCmd = false) ∧
    (let s (n : Nat) : State := { ready with led := { started := true, sinceCp := 1 }, clk := { ready.clk with tick := BitVec.ofNat 64 n } }
     (s 0).led.started = true ∧ (s 0).tickRuns = true ∧ (s 0).led.plain = false ∧ 0 < (s 0).led.sinceCp ∧
     ((s 9999999).clk.tick - (s 0).led.cpTick).toNat < 10000000 ∧ 10000000 ≤ ((s 10000000).clk.tick - (s 0).led.cpTick).toNat) ∧
    (let s : State := { ready with led := { drSize := 8, drTail := 5, written := 5 } }
     s.writesDropped = false ∧ (5 : BitVec 20).toNat < 2 ^ s.led.drSize.toNat ∧
     (5 + 2 ^ 8 - s.led.drHead.toNat % 2 ^ 8) % 2 ^ 8 ≤ s.led.drainUnfreed ∧ s.led.drainUnfreed < (6 + 2 ^ 8 - s.led.drHead.toNat % 2 ^ 8) % 2 ^ 8 ∧
     2 ^ s.led.drSize.toNat ≤ (256 : BitVec 20).toNat) := by
  decide +kernel

/-! ### Witnesses: registers, the management bus, the test port, every step -/

/-- Register accesses: a function whose link is down or behind a waiting write, an unaligned access, one beyond the BAR, a
frozen block and one that answers, the MSI-X table before READY and in a freeze. -/
theorem witness_registers :
    (let at8 (b : Bool) (off : Nat) : HostAccess := ⟨0, b, off, 8⟩
     ready.hostLinked 0 = false ∧ (host {}).hostLinked (host {}).ownerFn = true ∧ (host {}).writesDropped = false ∧
     (host {}).behindWrite (host {}).ownerFn = false ∧
     ((host {}).modPort 0 (fun p => { p with waiting := [(0, .doorbell 1)] })).behindWrite 0 = true ∧
     accessOk (at8 false 4) = false ∧ accessOk (at8 false 0x20000) = true ∧
     (host {}).barSize (at8 false (2 ^ 26 - 4)) < 2 ^ 26 - 4 + 8 ∧ 0x20000 + 8 ≤ (host {}).barSize (at8 false 0x20000) ∧
     ((host {}).regBlock 0 0x20000).1 = .pwr ∧ ((host {}).regBlock 0 0x40000).1 = .cdx ∧
     ((host {}).regBlock 0 0x40008).1 = .cdx ∧ ((host {}).regBlock 0 0x40008).2 / 8 ≠ 0 ∧
     accessOk (at8 true 0) = true ∧ 0 + 8 ≤ (host {}).barSize (at8 true 0) ∧
     ({ host {} with cur := { stage := .raise } } : State).hostLinked 0 = true ∧
     (let s : State := { host {} with act := .alert }
      s.frozen = true ∧ s.hostLinked 0 = true)) := by decide +kernel
/-- Management and test port: with and without a clock; the ring in the device and out of it. -/
theorem witness_management :
    ready.mgmtClocked = true ∧ State.reset.mgmtClocked = false ∧ ready.jtag.holds = false ∧
    (let s : State := { ready with act := .alert, jtag := { holds := true } }
     s.pwr.powered = true ∧ s.jtag.holds = true ∧ s.pwr.asserted = 0 ∧ s.cur.stage = .ready ∧ s.cur.wait = .none) := by decide
/-- Every clause of EveryStepAnswers, the frame of commands and the invariant: states they speak of. -/
theorem witness_steps :
    ready.pending = [] ∧ ready.clk.lockWait = false ∧ (∀ e ∈ ready.folios, e.2.trimWait = false) ∧ ready.fabricRuns = true ∧ (ready.folio 0).clock = .warm ∧ State.reset.fabricRuns = false ∧
    (∃ t, exec .ident ready = .next t) ∧ (∃ t, step ready = .next t) :=
  ⟨rfl, rfl, by decide, by decide, rfl, by decide, ⟨_, rfl⟩, ⟨_, rfl⟩⟩
/-- Canonical memories that are not empty: a byte of SRAM, of the archive and of the flash. -/
theorem witness_memories :
    (let s : State := { one { sram := [(3, 1)] } with archive := [(0, 1)], flash := [(0, 0)] }
     s.MemoriesCanonical) := by
  refine ⟨by decide, by decide, ?_⟩
  intro e he
  have h : e = (0, { sram := [(3, 1)], run := .running }) := by simpa [one, ready, State.setCarrel, State.reset, c0, carrelAt, CarrelId.key, Tbl.set, Tbl.insert] using he
  subst h
  exact ⟨by decide, by decide, by decide, by simp⟩

end Sys2Proof.Tests
end

section
/-! PROOF. Branches and jumps (R167), the waits of R173 and R175, FENCE and BEATRD (R172, R176): the outcomes of one
instruction on the state first, then what each instruction's body answers. -/

namespace Sys2Proof.Machine

/-! ### The outcomes of one instruction -/

/-- Where the carrel issues, no long instruction stands stopped. -/
theorem State.Issues.long_eq_none {s : State} {c : CarrelId} {op : BitVec 6} {uses : List (BitVec 5)}
    (h : s.Issues c op uses) : (s.carrel c).long = none := by
  obtain ⟨-, -, hlong, -⟩ := h
  exact hlong

/-- A fetched instruction of legal form that can issue does to the state what its own body answers. -/
theorem State.instr_of_issues {s : State} {c : CarrelId} {op : BitVec 6} {uses : List (BitVec 5)} {i : Instr}
    (h : s.Issues c op uses) (hf : s.Fetched c i) {legal : Bool} (hl : legal = true) (b : Carrel → CoreResult) :
    s.instr c (instrWord i) (fun k => k.issue op legal uses (b k)) =
      .next (s.applyCore c (b (s.carrel c)).issued) := by
  rw [State.instr_of_fetched h.1 hf, Carrel.issue_of_issues h hl]

/-- An instruction whose issue would wait leaves the state as it was, fetched or not (R173). -/
theorem State.instr_of_wait {s : State} {c : CarrelId} {b : Carrel → CoreResult} (hb : b (s.carrel c) = .wait)
    (w : Word) : s.instr c w b = .next s := by
  obtain h | ⟨-, -, h⟩ := s.instr_cases c w b
  · exact h
  · rw [h, hb]; rfl

/-- A body that goes on without a long instruction is the carrel's next state, the fetch register empty. -/
theorem State.applyCore_issued_next (s : State) (c : CarrelId) {k : Carrel} (hk : k.long = none) :
    s.applyCore c (CoreResult.next k {}).issued = s.setCarrel c { k with ir := none } := by
  simp [CoreResult.issued, hk]

/-- A reply pending on a register used makes an issue of legal form wait, where pg is not valid (R173). -/
theorem Carrel.issue_of_pending {k : Carrel} {uses : List (BitVec 5)} (hv : k.regs.pg.valid = false)
    (hu : ∃ i ∈ uses, k.regPending i = true) (op : BitVec 6) (b : CoreResult) : k.issue op true uses b = .wait := by
  have hany : uses.any k.regPending = true := List.any_eq_true.mpr hu
  simp [Carrel.issue, hv, hany]

/-- The form of BEATWAIT and BEATRD fails where one of its two zero register fields is not zero. -/
theorem zeroFields_eq_false {a b : BitVec 5} (h : a ≠ 0 ∨ b ≠ 0) : (a == 0 && b == 0 && (0 : BitVec 11) == 0) = false := by
  obtain ha | hb := h
  · simp only [beq_eq_false_iff_ne.mpr ha, Bool.false_and]
  · simp only [beq_eq_false_iff_ne.mpr hb, Bool.and_false, Bool.false_and]

/-- An illegal form raises ILLEGAL whatever registers it names: R188 checks it before R173 looks at them. -/
theorem State.instr_illegal_of_issues {s : State} {c : CarrelId} {op : BitVec 6} {uses : List (BitVec 5)} {i : Instr}
    (h : s.Issues c op uses) (hf : s.Fetched c i) {legal : Bool} (hl : legal = false) (named : List (BitVec 5))
    (b : Carrel → CoreResult) :
    s.instr c (instrWord i) (fun k => k.issue op legal named (b k)) =
      .next (s.setCarrel c ((s.carrel c).raise faultIllegal)) := by
  have hnamed : ∀ k : Carrel, k.issue op legal named (b k) = k.issue op legal uses (b k) := by
    simp [Carrel.issue, hl]
  simp only [hnamed]
  exact State.illegal_of_instr h hf hl b

/-! ### Branches, JAL and JALR (R167) -/

/-- The carrel after a branch: pc by 4 × off or to the next instruction, the fetch register empty. -/
def Carrel.branched (k : Carrel) (taken : Bool) (off : BitVec 16) : Carrel :=
  { k with regs := { k.regs with pc := if taken then k.regs.pc + 4 * off.signExtend 32 else k.regs.pc + 4 }, ir := none }

/-- The carrel after JAL or JALR: the link in g[rd], pc at the target, the fetch register empty. -/
def Carrel.linked (k : Carrel) (rd : BitVec 5) (target : Word) : Carrel :=
  { k with regs := { k.regs.setG rd (k.regs.pc + 4) with pc := target }, ir := none }

/-- A jump, taken or not, changes pc alone. -/
theorem CarrelRegs.jump_eq (r : CarrelRegs) (taken : Bool) (off : BitVec 16) :
    r.jump taken off = { r with pc := if taken then r.pc + 4 * off.signExtend 32 else r.pc + 4 } := by
  cases taken <;> rfl

/-- A branch of legal form goes where its test says. -/
theorem State.branch_of_issues {s : State} {c : CarrelId} {op : BitVec 6} {r1 r2 : BitVec 5} {uses : List (BitVec 5)}
    {off : BitVec 16} {i : Instr} (h : s.Issues c op uses) (hf : s.Fetched c i) (hi : instrWord i = wordI op r1 r2 off)
    {legal : Bool} (hl : legal = true) (taken : CarrelRegs → Bool) :
    s.branch c op r1 r2 legal uses taken off =
      .next (s.setCarrel c ((s.carrel c).branched (taken (s.carrel c).regs) off)) := by
  rw [State.branch, ← hi, State.instr_of_issues h hf hl, CarrelRegs.jump_eq]
  exact congrArg _ (s.applyCore_issued_next c h.long_eq_none)

/-- A branch of illegal form raises ILLEGAL. -/
theorem State.branch_illegal_of_issues {s : State} {c : CarrelId} {op : BitVec 6} {r1 r2 : BitVec 5}
    {uses : List (BitVec 5)} {off : BitVec 16} {i : Instr} (h : s.Issues c op uses) (hf : s.Fetched c i)
    (hi : instrWord i = wordI op r1 r2 off) {legal : Bool} (hl : legal = false) (taken : CarrelRegs → Bool) :
    s.branch c op r1 r2 legal uses taken off = .next (s.setCarrel c ((s.carrel c).raise faultIllegal)) := by
  rw [State.branch, ← hi]
  exact State.instr_illegal_of_issues h hf hl uses _

/-- BP and BNP branch where they name a predicate below 8 and no second register, and raise ILLEGAL otherwise. -/
theorem State.predicateBranch_of_issues {s : State} {c : CarrelId} {op : BitVec 6} {ps rs2 : BitVec 5} {off : BitVec 16}
    {i : Instr} {taken : CarrelRegs → Bool} (h : s.Issues c op []) (hi : instrWord i = wordI op ps rs2 off)
    (he : exec i s = s.branch c op ps rs2 (rs2 == 0 && predOk ps) [] taken off) :
    if ps.toNat < 8 ∧ rs2 = 0 then
      s.Fetched c i → exec i s = .next (s.setCarrel c ((s.carrel c).branched (taken (s.carrel c).regs) off))
    else s.Raises i c faultIllegal := by
  split
  next hl => exact fun hf => he.trans (State.branch_of_issues h hf hi (by simp [predOk, hl]) taken)
  next hl =>
    have hbad : (rs2 == 0 && predOk ps) = false := by simpa [predOk, imp_not_comm] using hl
    exact fun hf => he.trans (State.branch_illegal_of_issues h hf hi hbad taken)

theorem exec_beq (c : CarrelId) (rs1 rs2 : BitVec 5) (off : BitVec 16) (s : State) :
    exec (.beq c rs1 rs2 off) s = s.branch c 0x10 rs1 rs2 true [rs1, rs2] (fun r => r.getG rs1 == r.getG rs2) off := rfl

theorem exec_bne (c : CarrelId) (rs1 rs2 : BitVec 5) (off : BitVec 16) (s : State) :
    exec (.bne c rs1 rs2 off) s = s.branch c 0x11 rs1 rs2 true [rs1, rs2] (fun r => r.getG rs1 != r.getG rs2) off := rfl

theorem exec_bp (c : CarrelId) (ps rs2 : BitVec 5) (off : BitVec 16) (s : State) :
    exec (.bp c ps rs2 off) s = s.branch c 0x12 ps rs2 (rs2 == 0 && predOk ps) [] (fun r => r.getP ps) off := rfl

theorem exec_bnp (c : CarrelId) (ps rs2 : BitVec 5) (off : BitVec 16) (s : State) :
    exec (.bnp c ps rs2 off) s = s.branch c 0x13 ps rs2 (rs2 == 0 && predOk ps) [] (fun r => !r.getP ps) off := rfl

theorem exec_jal (c : CarrelId) (rd : BitVec 5) (imm : BitVec 21) (s : State) :
    exec (.jal c rd imm) s = s.instr c (instrWord (.jal c rd imm)) (fun k => k.issue 0x14 true [rd]
      (.next { k with regs :=
        { k.regs.setG rd (k.regs.pc + 4) with pc := k.regs.pc + 4 * imm.signExtend 32 } } {})) := rfl

theorem exec_jalr (c : CarrelId) (rd rs1 : BitVec 5) (imm : BitVec 16) (s : State) :
    exec (.jalr c rd rs1 imm) s = s.instr c (instrWord (.jalr c rd rs1 imm)) (fun k => k.issue 0x15 true [rd, rs1]
      (if (k.regs.getG rs1 + imm.signExtend 32).toNat % 4 != 0 then .fault k faultMisaligned {}
       else .next { k with regs :=
        { k.regs.setG rd (k.regs.pc + 4) with pc := k.regs.getG rs1 + imm.signExtend 32 } } {})) := rfl

/-- JAL links and jumps. -/
theorem exec_jal_of_issues {s : State} {c : CarrelId} {rd : BitVec 5} {imm : BitVec 21} (h : s.Issues c 0x14 [rd])
    (hf : s.Fetched c (.jal c rd imm)) :
    exec (.jal c rd imm) s =
      .next (s.setCarrel c ((s.carrel c).linked rd ((s.carrel c).regs.pc + 4 * imm.signExtend 32))) := by
  rw [exec_jal, State.instr_of_issues h hf rfl]
  exact congrArg _ (s.applyCore_issued_next c h.long_eq_none)

/-- JALR to a multiple of 4 links and jumps. -/
theorem exec_jalr_of_aligned {s : State} {c : CarrelId} {rd rs1 : BitVec 5} {imm : BitVec 16}
    (h : s.Issues c 0x15 [rd, rs1]) (hf : s.Fetched c (.jalr c rd rs1 imm))
    (ha : ((s.carrel c).regs.getG rs1 + imm.signExtend 32).toNat % 4 = 0) :
    exec (.jalr c rd rs1 imm) s =
      .next (s.setCarrel c ((s.carrel c).linked rd ((s.carrel c).regs.getG rs1 + imm.signExtend 32))) := by
  rw [exec_jalr, State.instr_of_issues h hf rfl, if_neg (by simpa using ha)]
  exact congrArg _ (s.applyCore_issued_next c h.long_eq_none)

/-- JALR to another address raises MISALIGNED and does not link. -/
theorem stops_jalr_of_misaligned {s : State} {c : CarrelId} {rd rs1 : BitVec 5} {imm : BitVec 16}
    (h : s.Issues c 0x15 [rd, rs1]) (hf : s.Fetched c (.jalr c rd rs1 imm))
    (ha : ((s.carrel c).regs.getG rs1 + imm.signExtend 32).toNat % 4 ≠ 0) :
    s.Stops (.jalr c rd rs1 imm) c faultMisaligned := by
  rw [State.Stops, exec_jalr, State.instr_of_issues h hf rfl, if_pos (by simpa using ha)]
  exact congrArg _ (State.applyCore_fault (by decide) (by decide))

/-- Settles O7: the branches by their tests, BP and BNP by their form too, JALR by its target. -/
theorem branchesAndJumpsMovePc : Obligations.BranchesAndJumpsMovePc := by
  intro s c rd rs1 rs2 off imm21 k goes jumps
  refine ⟨fun h hf => ?beq, fun h hf => ?bne, fun h => ?bp, fun h => ?bnp, fun h hf => exec_jal_of_issues h hf,
    fun h => ?jalr⟩
  case beq => rw [exec_beq]; exact State.branch_of_issues h hf rfl rfl _
  case bne => rw [exec_bne]; exact State.branch_of_issues h hf rfl rfl _
  case bp => exact State.predicateBranch_of_issues h rfl (exec_bp ..)
  case bnp => exact State.predicateBranch_of_issues h rfl (exec_bnp ..)
  case jalr =>
    intro target
    split
    next ha => exact fun hf => exec_jalr_of_aligned h hf ha
    next ha => exact fun hf => stops_jalr_of_misaligned h hf ha

/-! ### FENCE and BEATWAIT (R172, R173, R175) -/

theorem exec_add (c : CarrelId) (rd rs1 rs2 : BitVec 5) (s : State) :
    exec (.add c rd rs1 rs2) s = s.alu c 0x00 0 true rd rs1 rs2 (fun a b => a + b) := rfl

theorem exec_fmul (c : CarrelId) (rd rs1 rs2 : BitVec 5) (s : State) :
    exec (.fmul c rd rs1 rs2) s = s.alu c 0x01 2 true rd rs1 rs2 fpMul := rfl

theorem exec_fence (c : CarrelId) (fields : BitVec 26) (s : State) :
    exec (.fence c fields) s = s.instr c (instrWord (.fence c fields)) (fun k => k.issue 0x20 (fields == 0) []
      (if k.loads.isEmpty && k.stores.isEmpty then k.retire id else .wait)) := rfl

theorem exec_beatwait (c : CarrelId) (rd rs1 rs2 : BitVec 5) (fn : BitVec 11) (s : State) :
    exec (.beatwait c rd rs1 rs2 fn) s = s.instr c (instrWord (.beatwait c rd rs1 rs2 fn)) (fun k =>
      k.issue 0x24 (rd == 0 && rs2 == 0 && fn == 0) [rs1]
        (if k.beat < (k.regs.getG rs1).toNat then .wait
         else if k.beat = (k.regs.getG rs1).toNat then k.retire id
         else .next k.overran {})) := rfl

/-- An operation of two g registers waits for a reply pending on any of its three. -/
theorem State.alu_of_pending {s : State} {c : CarrelId} {rd rs1 rs2 : BitVec 5} (hv : (s.carrel c).regs.pg.valid = false)
    (hu : ∃ i ∈ [rd, rs1, rs2], (s.carrel c).regPending i = true) (op : BitVec 6) (fn : BitVec 11)
    (f : Word → Word → Word) : s.alu c op fn true rd rs1 rs2 f = .next s :=
  State.instr_of_wait (Carrel.issue_of_pending hv hu op _) _

/-- FENCE with an access outstanding waits. -/
theorem exec_fence_of_outstanding {s : State} {c : CarrelId} (h : s.Issues c 0x20 [])
    (ho : (s.carrel c).loads ≠ [] ∨ (s.carrel c).stores ≠ []) : exec (.fence c 0) s = .next s := by
  have hbusy : ¬((s.carrel c).loads.isEmpty && (s.carrel c).stores.isEmpty) = true := by
    simp only [Bool.and_eq_true, List.isEmpty_iff]
    rintro ⟨hl, hs⟩
    exact ho.elim (absurd hl) (absurd hs)
  rw [exec_fence]
  exact State.instr_of_wait ((Carrel.issue_of_issues h rfl _).trans (if_neg hbusy)) _

/-- FENCE with nothing outstanding retires. -/
theorem retires_fence {s : State} {c : CarrelId} (h : s.Issues c 0x20 []) (hl : (s.carrel c).loads = [])
    (hs : (s.carrel c).stores = []) : s.Retires (.fence c 0) c (fun r => r) := by
  intro hf
  rw [exec_fence, State.instr_of_issues h hf, if_pos (by simp [hl, hs])]
  · exact congrArg _ (State.applyCore_retire h.long_eq_none rfl)
  · rfl

/-- BEATWAIT before its beat waits. -/
theorem exec_beatwait_of_early {s : State} {c : CarrelId} {rs1 : BitVec 5} (h : s.Issues c 0x24 [rs1])
    (hb : (s.carrel c).beat < ((s.carrel c).regs.getG rs1).toNat) : exec (.beatwait c 0 rs1 0 0) s = .next s := by
  rw [exec_beatwait]
  refine State.instr_of_wait ?_ _
  exact (Carrel.issue_of_issues h rfl _).trans (if_pos hb)

/-- BEATWAIT at its beat retires. -/
theorem retires_beatwait {s : State} {c : CarrelId} {rs1 : BitVec 5} (h : s.Issues c 0x24 [rs1])
    (hb : (s.carrel c).beat = ((s.carrel c).regs.getG rs1).toNat) :
    s.Retires (.beatwait c 0 rs1 0 0) c (fun r => r) := by
  intro hf
  rw [exec_beatwait, State.instr_of_issues h hf, if_neg (Nat.not_lt.mpr (Nat.le_of_eq hb.symm)), if_pos hb]
  · exact congrArg _ (State.applyCore_retire h.long_eq_none rfl)
  · rfl

/-- BEATWAIT after its beat is an overrun. -/
theorem exec_beatwait_of_late {s : State} {c : CarrelId} {rs1 : BitVec 5} (h : s.Issues c 0x24 [rs1])
    (hf : s.Fetched c (.beatwait c 0 rs1 0 0)) (hb : ((s.carrel c).regs.getG rs1).toNat < (s.carrel c).beat) :
    exec (.beatwait c 0 rs1 0 0) s = .next (s.setCarrel c { (s.carrel c).overran with ir := none }) := by
  rw [exec_beatwait, State.instr_of_issues h hf, if_neg (Nat.lt_asymm hb), if_neg (Nat.ne_of_gt hb)]
  · exact congrArg _ (s.applyCore_issued_next c h.long_eq_none)
  · rfl

/-- Settles O15: what waits answers the state it found, an issue its body's result, a bad field ILLEGAL. -/
theorem fencesAndBeatwaitsWaitAndIssue : Obligations.FencesAndBeatwaitsWaitAndIssue := by
  intro s c rd rs1 rs2 fields k n wait
  refine ⟨fun _ hv _ hp => ?pending, fun h => ⟨fun hz hf => ?fence, exec_fence_of_outstanding h, retires_fence h⟩,
    fun h hz hf => ?beatwait,
    fun h => ⟨exec_beatwait_of_early h, retires_beatwait h, fun hb hf => exec_beatwait_of_late h hf hb⟩⟩
  case pending =>
    have hu : ∃ i ∈ [rd, rs1, rs2], k.regPending i = true := by simpa using hp
    rw [exec_add, exec_fmul]
    exact ⟨State.alu_of_pending hv hu _ _ _, State.alu_of_pending hv hu _ _ _⟩
  case fence =>
    rw [State.Stops, exec_fence]
    exact State.instr_illegal_of_issues h hf (by simpa using hz) _ _
  case beatwait =>
    rw [State.Stops, exec_beatwait]
    exact State.instr_illegal_of_issues h hf (zeroFields_eq_false hz) _ _

/-! ### BEATRD (R176) -/

theorem exec_beatrd (c : CarrelId) (rd rs1 rs2 : BitVec 5) (fn : BitVec 11) (s : State) :
    exec (.beatrd c rd rs1 rs2 fn) s = s.sysRead c (instrWord (.beatrd c rd rs1 rs2 fn))
      (rs1 == 0 && rs2 == 0 && fn == 0) 0x25 rd (fun k => BitVec.ofNat 32 k.beat) := rfl

/-- Outside a pure pass the gate of R187 lets the instruction through. -/
theorem Carrel.pureGate_of_not_pure {k : Carrel} (hp : k.regs.st.pure_ = false) (b : CoreResult) : k.pureGate b = b := by
  simp [Carrel.pureGate, hp]

/-- Outside a pure pass a read of the core's own circumstances of legal form writes g[rd]. -/
theorem State.sysRead_of_issues {s : State} {c : CarrelId} {op : BitVec 6} {rd : BitVec 5} {i : Instr}
    (h : s.Issues c op [rd]) (hf : s.Fetched c i) (hp : (s.carrel c).regs.st.pure_ = false) {legal : Bool}
    (hl : legal = true) (f : Carrel → Word) :
    s.sysRead c (instrWord i) legal op rd f = .next (s.setCarrel c { s.carrel c with
      regs := { (s.carrel c).regs.setG rd (f (s.carrel c)) with pc := (s.carrel c).regs.pc + 4 }, ir := none }) := by
  rw [State.sysRead, State.instr_of_issues h hf hl, Carrel.pureGate_of_not_pure hp,
    State.applyCore_retire h.long_eq_none (CarrelRegs.setG_pc ..)]

/-- Settles O16: a read outside a pure pass, or an illegal form. -/
theorem beatrdReadsTheBeatCount : Obligations.BeatrdReadsTheBeatCount := by
  intro s c rd rs1 rs2 h hp
  refine ⟨fun h1 h2 hf => ?legal, fun hz hf => ?illegal⟩
  case legal =>
    rw [exec_beatrd]
    exact State.sysRead_of_issues h hf hp (by simp [h1, h2]) _
  case illegal =>
    rw [State.Stops, exec_beatrd]
    exact State.instr_illegal_of_issues h hf (zeroFields_eq_false hz) _ _

end Sys2Proof.Machine
end

section
/-! PROOF. The rings of a function and their configuration (R320 to R326, Table 14.16): how a doorbell's tail and a
written head stand to a ring first, then the doorbell, and then each write of the RDR block. -/

namespace Sys2Proof.Machine

/-! ### Positions in a ring (R321, R325) -/

/-- How far a pointer stands ahead of the ring's head, modulo its entries. -/
def Ring.ahead (g : Ring) (t : BitVec 12) : Nat := (t.toNat + g.entries - g.head.toNat) % g.entries

/-- A head is accepted where it lies in the ring and frees no more than what is written and not freed. -/
theorem Ring.headOk_iff (g : Ring) (head : BitVec 12) :
    g.headOk head = true ↔ head.toNat < g.entries ∧ g.ahead head ≤ g.ahead g.tail := by
  rw [Ring.headOk, Bool.and_eq_true, decide_eq_true_iff, decide_eq_true_iff]
  rfl

theorem Ring.sizeOk_iff (g : Ring) : g.sizeOk = true ↔ 4 ≤ g.size.toNat ∧ g.size.toNat ≤ 12 := by
  simp [Ring.sizeOk]

/-! ### Doorbells (R322, R325, R326) -/

theorem exec_doorbell (r : ReaderId) (tail : BitVec 12) (s : State) :
    exec (.doorbell r tail) s = execDoorbell r tail s := rfl

theorem State.captureWaits_of_not_ready {s : State} (h : s.cur.stage ≠ .ready) : s.captureWaits = true := by
  have hready : s.isReady = false := beq_eq_false_iff_ne.mpr h
  simp [State.captureWaits, hready]

theorem State.captureWaits_of_dead {s : State} (h : ∃ p, s.act = .dead p) : s.captureWaits = true := by
  obtain ⟨p, hp⟩ := h
  simp [State.captureWaits, hp]

/-- The captures that a doorbell of this tail announces: the positions they reach, one tick, rising orders. -/
def State.newCaptures (s : State) (g : Ring) (tail : BitVec 12) : List (BitVec 12 × DWord × Nat) :=
  (List.range (g.ahead tail - g.ahead g.tail)).map (fun i =>
    (BitVec.ofNat 12 ((g.tail.toNat + i + 1) % g.entries), s.clk.tick, s.arrivals + i))

theorem State.length_newCaptures (s : State) (g : Ring) (tail : BitVec 12) :
    (s.newCaptures g tail).length = g.ahead tail - g.ahead g.tail := by
  simp [State.newCaptures]

theorem State.tick_of_mem_newCaptures {s : State} {g : Ring} {tail : BitVec 12} {a : BitVec 12 × DWord × Nat}
    (h : a ∈ s.newCaptures g tail) : a.2.1 = s.clk.tick := by
  obtain ⟨i, -, rfl⟩ := List.mem_map.mp h
  rfl

/-- The RDR block once a doorbell of this tail has announced `new`. -/
def Reader.announce (x : Reader) (tail : BitVec 12) (new : List (BitVec 12 × DWord × Nat)) : Reader :=
  { x with reqRing := { x.reqRing with tail := tail }, announced := x.announced ++ new }

/-- The state once a doorbell of this tail is captured. -/
def State.captured (s : State) (r : ReaderId) (tail : BitVec 12) : State :=
  let g := (s.reader r).reqRing
  (s.modReader r (fun x => x.announce tail (s.newCaptures g tail))).countCaptures (readerPort r)
    (g.ahead tail - g.ahead g.tail)

theorem State.countCaptures_reader (s : State) (p : PortId) (k : Nat) (r : ReaderId) :
    (s.countCaptures p k).reader r = s.reader r := rfl

theorem State.countCaptures_port (s : State) (p : PortId) (k : Nat) :
    (s.countCaptures p k).port p = { s.port p with captures := satAdd (s.port p).captures k } :=
  s.modPort_same p (fun x => { x with captures := satAdd x.captures k })

theorem State.captured_reader (s : State) (r : ReaderId) (tail : BitVec 12) :
    (s.captured r tail).reader r = (s.reader r).announce tail (s.newCaptures (s.reader r).reqRing tail) := by
  rw [State.captured, State.countCaptures_reader, State.modReader_same]

theorem State.captured_captures (s : State) (r : ReaderId) (tail : BitVec 12) :
    ((s.captured r tail).port (readerPort r)).captures = satAdd (s.port (readerPort r)).captures
      ((s.reader r).reqRing.ahead tail - (s.reader r).reqRing.ahead (s.reader r).reqRing.tail) := by
  rw [State.captured, State.countCaptures_port, State.modReader_port]

theorem State.captured_arrivals (s : State) (r : ReaderId) (tail : BitVec 12) :
    (s.captured r tail).arrivals = s.arrivals +
      ((s.reader r).reqRing.ahead tail - (s.reader r).reqRing.ahead (s.reader r).reqRing.tail) := rfl

/-- A captured doorbell, by the ring's own positions. -/
theorem State.captureDoorbell_eq (s : State) (r : ReaderId) (tail : BitVec 12) :
    s.captureDoorbell r tail =
      let g := (s.reader r).reqRing
      if !(s.reader r).reqEn || decide (g.entries ≤ tail.toNat) || decide (g.ahead tail < g.ahead g.tail) then
        s.badRdrWrite r
      else s.captured r tail := rfl

/-- A doorbell while the request ring is off is dropped and counted. -/
theorem State.doorbell_of_disabled {s : State} {r : ReaderId} (h : (s.reader r).reqEn = false) (tail : BitVec 12) :
    s.doorbell r tail = s.badRdrWrite r := by
  simp [State.doorbell, h]

section
variable {s : State} {r : ReaderId} {tail : BitVec 12}

/-- With the ring on and the reader's captures taken, a doorbell outside the ring, or behind what is announced, is
dropped and counted; any other is captured. -/
theorem State.doorbell_of_enabled (hen : (s.reader r).reqEn = true) (hcap : s.mayCapture r = true) :
    s.doorbell r tail = if (s.reader r).reqRing.entries ≤ tail.toNat ∨
      (s.reader r).reqRing.ahead tail < (s.reader r).reqRing.ahead (s.reader r).reqRing.tail then s.badRdrWrite r
      else s.captured r tail := by
  simp only [State.doorbell, hen, hcap, State.captureDoorbell_eq, Bool.not_true, Bool.false_eq_true, if_false, if_true,
    Bool.false_or, Bool.or_eq_true, decide_eq_true_eq]

theorem State.doorbell_of_badTail (hen : (s.reader r).reqEn = true) (hcap : s.mayCapture r = true)
    (ht : (s.reader r).reqRing.entries ≤ tail.toNat ∨
      (s.reader r).reqRing.ahead tail < (s.reader r).reqRing.ahead (s.reader r).reqRing.tail) :
    s.doorbell r tail = s.badRdrWrite r := by
  rw [State.doorbell_of_enabled hen hcap, if_pos ht]

theorem State.doorbell_of_goodTail (hen : (s.reader r).reqEn = true) (hcap : s.mayCapture r = true)
    (hlt : tail.toNat < (s.reader r).reqRing.entries)
    (hle : (s.reader r).reqRing.ahead (s.reader r).reqRing.tail ≤ (s.reader r).reqRing.ahead tail) :
    s.doorbell r tail = s.captured r tail := by
  rw [State.doorbell_of_enabled hen hcap, if_neg]
  exact not_or.mpr ⟨Nat.not_le.mpr hlt, Nat.not_lt.mpr hle⟩

theorem exec_doorbell_of_waits (hr : s.hostReaches r = true) (hw : s.captureWaits = true) :
    exec (.doorbell r tail) s = .next (s.waitWrite r (.doorbell tail)) := by
  simp [exec_doorbell, execDoorbell, hr, hw]

theorem exec_doorbell_of_performed (hr : s.hostReaches r = true) (hw : s.captureWaits = false) :
    exec (.doorbell r tail) s = .next (s.doorbell r tail).settle := by
  simp [exec_doorbell, execDoorbell, hr, hw]

end

/-! ### Writes of the RDR block (R320, R321, R323 to R325) -/

theorem exec_verHead (r : ReaderId) (head : BitVec 12) (s : State) :
    exec (.verHead r head) s = execVerHead r head s := rfl

theorem exec_notHead (r : ReaderId) (head : BitVec 12) (s : State) :
    exec (.notHead r head) s = execNotHead r head s := rfl

theorem exec_rdrControl (r : ReaderId) (bits : BitVec 4) (s : State) :
    exec (.rdrControl r bits) s = execRdrControl r bits s := rfl

theorem exec_rdrWindow (r : ReaderId) (base : DWord) (s : State) :
    exec (.rdrWindow r base) s = execRdrWindow r base s := rfl

theorem exec_ringConfig (r : ReaderId) (ring : RingKind) (base : Word) (size : BitVec 4) (s : State) :
    exec (.ringConfig r ring base size) s = execRingConfig r ring base size s := rfl

section
variable {s : State} {r : ReaderId} (hw : s.rdrWrites r = true)
include hw

theorem exec_verHead_of_writes (head : BitVec 12) : exec (.verHead r head) s =
    if (s.reader r).verRing.headOk head then
      .next (s.modReader r (fun x => { x with verRing := { x.verRing with head := head } })).settle
    else .next (s.badRdrWrite r) := by
  simp [exec_verHead, execVerHead, hw]

theorem exec_notHead_of_writes (head : BitVec 12) : exec (.notHead r head) s =
    if (s.reader r).notRing.headOk head then
      .next (s.modReader r (fun x => { x with notRing := { x.notRing with head := head } })).settle
    else .next (s.badRdrWrite r) := by
  simp [exec_notHead, execNotHead, hw]

/-- A write that enables the verdict ring with s outside 4 to 12 is dropped and counted. -/
theorem exec_rdrControl_of_badVerSize {bits : BitVec 4} (hb : bitOf bits 1 = true) (hen : (s.reader r).verEn = false)
    (hs : (s.reader r).verRing.sizeOk = false) : exec (.rdrControl r bits) s = .next (s.badRdrWrite r) := by
  simp [exec_rdrControl, execRdrControl, hw, hb, hen, hs]

/-- A write is accepted where every ring has an s from 4 to 12. -/
theorem exec_rdrControl_of_sizesOk (bits : BitVec 4) (hq : (s.reader r).reqRing.sizeOk = true)
    (hv : (s.reader r).verRing.sizeOk = true) (hn : (s.reader r).notRing.sizeOk = true) :
    exec (.rdrControl r bits) s = .next ((s.modReader r (fun x => x.control bits)).checkAway r).settle := by
  simp [exec_rdrControl, execRdrControl, hw, hq, hv, hn]

theorem exec_rdrWindow_of_writes (base : DWord) : exec (.rdrWindow r base) s =
    if 2 ^ 64 < base.toNat / 4096 * 4096 + 2 ^ 32 then .next (s.badRdrWrite r)
    else .next (s.modReader r (fun x => { x with window := BitVec.ofNat 64 (base.toNat / 4096 * 4096) })) := by
  simp [exec_rdrWindow, execRdrWindow, hw]

theorem exec_ringConfig_ver_of_writes (base : Word) (size : BitVec 4) : exec (.ringConfig r .ver base size) s =
    if (s.reader r).verEn then .next (s.badRdrWrite r)
    else .next (s.modReader r (fun x => { x with
      verRing := { x.verRing with base := BitVec.ofNat 32 (base.toNat / 4096 * 4096), size := size } })) := by
  simp [exec_ringConfig, execRingConfig, hw]

theorem exec_ringConfig_req_of_writes (base : Word) (size : BitVec 4) : exec (.ringConfig r .req base size) s =
    if (s.reader r).reqEn then .next (s.badRdrWrite r)
    else .next (s.modReader r (fun x => { x with
      reqRing := { x.reqRing with base := BitVec.ofNat 32 (base.toNat / 4096 * 4096), size := size } })) := by
  simp [exec_ringConfig, execRingConfig, hw]

end

/-- With nothing being read, a reader that becomes away has no read to fail. -/
theorem State.checkAway_of_not_reading {s : State} {r : ReaderId} (h : (s.reader r).reading = none) :
    s.checkAway r = s := by
  simp [State.checkAway, State.readFail, h]

@[simp] theorem Reader.control_reading (x : Reader) (bits : BitVec 4) : (x.control bits).reading = x.reading := rfl

/-- A CONTROL write of all four enables to a block whose rings are off: every ring starts at 0 with PHASE 1. -/
theorem Reader.control_allOn {x : Reader} (hq : x.reqEn = false) (hv : x.verEn = false) (hn : x.notEn = false) :
    x.control 0xF = { x with
      reqEn := true, verEn := true, notEn := true, dropEn := true, announced := [],
      reqRing := x.reqRing.enabled, verRing := x.verRing.enabled, notRing := x.notRing.enabled } := by
  simp [Reader.control, bitOf, hq, hv, hn]

/-- Settles O48: a doorbell by the wait, the enable and its tail; each write of the RDR block by its check. -/
theorem ringsAndTheirConfiguration : Obligations.RingsAndTheirConfiguration := by
  intro s r v bits size base win x n bad ahead frees
  refine ⟨fun hr => ⟨State.captureWaits_of_not_ready, State.captureWaits_of_dead, exec_doorbell_of_waits hr,
      fun hw hen => ?ringOff, fun hw hen hcap => ⟨fun ht => ?badTail, fun hlt hle => ?captured⟩⟩,
    fun hw => ⟨fun h => ?verHead, fun h => ?verHeadBad, fun h => ?notHead, fun h => ?notHeadBad,
      fun hb hen hs => ?badSize, fun hq hv hn hread hbits hq4 hq12 hv4 hv12 hn4 hn12 => ?allOn,
      fun h => ?window, fun h => ?windowWraps, fun h => ?verOn, fun h => ?verOff, fun h => ?reqOff⟩⟩
  case ringOff => rw [exec_doorbell_of_performed hr hw, State.doorbell_of_disabled hen]; rfl
  case badTail => rw [exec_doorbell_of_performed hr hw, State.doorbell_of_badTail hen hcap ht]; rfl
  case captured =>
    refine ⟨s.captured r v, ?_, by rw [State.captured_reader]; rfl, ?_, fun a ha => ?_, s.captured_captures r v,
      s.captured_arrivals r v⟩
    · rw [exec_doorbell_of_performed hr hw, State.doorbell_of_goodTail hen hcap hlt hle]
    · rw [State.captured_reader]
      exact List.length_append.trans (congrArg _ (s.length_newCaptures _ v))
    · rw [State.captured_reader] at ha
      exact (List.mem_append.mp ha).imp_right State.tick_of_mem_newCaptures
  case verHead => rw [exec_verHead_of_writes hw, if_pos ((Ring.headOk_iff _ v).mpr h)]
  case verHeadBad => rw [exec_verHead_of_writes hw, if_neg (mt (Ring.headOk_iff _ v).mp h)]; rfl
  case notHead => rw [exec_notHead_of_writes hw, if_pos ((Ring.headOk_iff _ v).mpr h)]
  case notHeadBad => rw [exec_notHead_of_writes hw, if_neg (mt (Ring.headOk_iff _ v).mp h)]; rfl
  case badSize =>
    have hsize : x.verRing.sizeOk = false := by
      rw [← Bool.not_eq_true, Ring.sizeOk_iff]
      omega
    exact exec_rdrControl_of_badVerSize hw hb hen hsize
  case allOn =>
    subst hbits
    refine ⟨s.modReader r (fun x => x.control 0xF), ?_, ?_⟩
    · have hquiet : ((s.modReader r (fun x => x.control 0xF)).reader r).reading = none := by simpa using hread
      rw [exec_rdrControl_of_sizesOk hw _ ((Ring.sizeOk_iff _).mpr ⟨hq4, hq12⟩) ((Ring.sizeOk_iff _).mpr ⟨hv4, hv12⟩)
        ((Ring.sizeOk_iff _).mpr ⟨hn4, hn12⟩), State.checkAway_of_not_reading hquiet]
    · rw [State.modReader_same, Reader.control_allOn hq hv hn]
      exact ⟨rfl, rfl, rfl, rfl, rfl, rfl, rfl, rfl⟩
  case window => rw [exec_rdrWindow_of_writes hw, if_neg (Nat.not_lt.mpr h)]
  case windowWraps => rw [exec_rdrWindow_of_writes hw, if_pos h]; rfl
  case verOn => rw [exec_ringConfig_ver_of_writes hw, if_pos h]; rfl
  case verOff => rw [exec_ringConfig_ver_of_writes hw, if_neg (Bool.eq_false_iff.mp h)]
  case reqOff => rw [exec_ringConfig_req_of_writes hw, if_neg (Bool.eq_false_iff.mp h)]

end Sys2Proof.Machine
end
